-- ==== Sys2Proof/Word.lean ====
section
/-! DEFINITION. The widths of the machine: bytes, 32-bit words and 5-bit register numbers (spec 00 R6, R9, R12). -/

namespace Sys2Proof

/-- One byte of memory (R51). -/
abbrev Byte := BitVec 8

/-- A 32-bit register, address or instruction word; arithmetic on it is modulo 2^32 (R6, R9). -/
abbrev Word := BitVec 32

/-- A 16-bit lane of a register in DUAL16 mode (R220). -/
abbrev Half := BitVec 16

/-- The 5-bit register number of an instruction field (R12, R20). -/
abbrev RegNum := BitVec 5

end Sys2Proof
end

