-- ==== Sys2Proof/Syntax.lean ====
section
/-! DEFINITION. The instructions: one constructor per row of spec/opcode_table.json (30 R94). Operands are in
assembler order, destination first (R92). Fields that an instruction ignores (R90) are no operands. -/

namespace Sys2Proof

/-- An instruction. `shamt` is the shift amount (0..31, R81); `off` the branch offset, a signed count of
instructions (R92); `imm` the raw 16-bit immediate field; `addr` the 26-bit jump field. The bounds on `shamt` and
`off` are `Instr.wellFormed`'s. -/
inductive Instr where
  -- R-Type (40)
  | sll (rd rt : RegNum) (shamt : Nat)
  | srl (rd rt : RegNum) (shamt : Nat)
  | sra (rd rt : RegNum) (shamt : Nat)
  | jr (rs : RegNum)
  | jalr (rs : RegNum)
  /-- BREAK (R135). -/
  | brk
  | mfhi (rd : RegNum)
  | mflo (rd : RegNum)
  | mult (rs rt : RegNum)
  | div (rs rt : RegNum)
  | setie
  | add (rd rs rt : RegNum)
  | addu (rd rs rt : RegNum)
  | sub (rd rs rt : RegNum)
  | subu (rd rs rt : RegNum)
  | and (rd rs rt : RegNum)
  | or (rd rs rt : RegNum)
  | xor (rd rs rt : RegNum)
  | nor (rd rs rt : RegNum)
  | slt (rd rs rt : RegNum)
  | sltu (rd rs rt : RegNum)
  | rb (rd rs : RegNum)
  | rbo (rd rs : RegNum)
  | rr (rd rt : RegNum) (shamt : Nat)
  -- I-Type (41)
  | bgez (rs : RegNum) (off : Int)
  | beq (rs rt : RegNum) (off : Int)
  | bne (rs rt : RegNum) (off : Int)
  | blez (rs : RegNum) (off : Int)
  | bgtz (rs : RegNum) (off : Int)
  | addi (rt rs : RegNum) (imm : BitVec 16)
  | bltz (rs : RegNum) (off : Int)
  | slti (rt rs : RegNum) (imm : BitVec 16)
  | sltiu (rt rs : RegNum) (imm : BitVec 16)
  | andi (rt rs : RegNum) (imm : BitVec 16)
  | ori (rt rs : RegNum) (imm : BitVec 16)
  | xori (rt rs : RegNum) (imm : BitVec 16)
  | lui (rt : RegNum) (imm : BitVec 16)
  | bdt (off : Int)
  | bdf (off : Int)
  -- Enhancements (43)
  | input (rt rs : RegNum) (imm : BitVec 16)
  | output (rt rs : RegNum) (imm : BitVec 16)
  | reti
  -- I-Type (41)
  | lw (rt rs : RegNum) (imm : BitVec 16)
  | bsi (rt rs : RegNum) (imm : BitVec 16)
  | bci (rt rs : RegNum) (imm : BitVec 16)
  | sw (rt rs : RegNum) (imm : BitVec 16)
  -- J-Type (42)
  | j (addr : BitVec 26)
  | jal (addr : BitVec 26)
  -- V-Type (44)
  | add8 (rd rs rt : RegNum)
  | add16 (rd rs rt : RegNum)
  | sub8 (rd rs rt : RegNum)
  | sub16 (rd rs rt : RegNum)
  | and8 (rd rs rt : RegNum)
  | and16 (rd rs rt : RegNum)
  | or8 (rd rs rt : RegNum)
  | or16 (rd rs rt : RegNum)
  | not8 (rd rs : RegNum)
  | not16 (rd rs : RegNum)
  | xor8 (rd rs rt : RegNum)
  | xor16 (rd rs rt : RegNum)
  | mul8 (rs rt : RegNum)
  | mul16 (rs rt : RegNum)
  | div8 (rs rt : RegNum)
  | div16 (rs rt : RegNum)
  /-- VMFHI with msel 01. -/
  | vmfhi8 (rd : RegNum)
  /-- VMFHI with msel 10: the same operation (R239). -/
  | vmfhi16 (rd : RegNum)
  /-- VMFLO with msel 01. -/
  | vmflo8 (rd : RegNum)
  /-- VMFLO with msel 10: the same operation (R240). -/
  | vmflo16 (rd : RegNum)
  deriving DecidableEq, Repr

end Sys2Proof
end

