-- ==== Sys2Proof/WellFormed.lean ====
section
/-! DEFINITION. Which instruction terms an encoding can hold: the shift amount fits its five bits (30 R81, 40 R111)
and the branch offset its sixteen (R82, R92). Every other operand's type is exactly its field. -/

namespace Sys2Proof

/-- A shift amount that the five-bit `shamt` field holds: 0..31 (R81, R111, conflict C26). -/
def shamtFits (shamt : Nat) : Bool := shamt < 32

/-- A branch offset that the 16-bit immediate field holds: -32768..32767 instructions (R82, R92). -/
def offsetFits (off : Int) : Bool := -32768 ≤ off && off ≤ 32767

/-- The instruction has an encoding: its shift amount or branch offset, if it has one, fits its field. -/
def Instr.wellFormed : Instr → Bool
  | .sll _ _ shamt | .srl _ _ shamt | .sra _ _ shamt | .rr _ _ shamt => shamtFits shamt
  | .bgez _ off | .bltz _ off | .blez _ off | .bgtz _ off => offsetFits off
  | .beq _ _ off | .bne _ _ off => offsetFits off
  | .bdt off | .bdf off => offsetFits off
  | .jr _ | .jalr _ | .brk | .mfhi _ | .mflo _ | .mult _ _ | .div _ _ | .setie => true
  | .add _ _ _ | .addu _ _ _ | .sub _ _ _ | .subu _ _ _ | .and _ _ _ | .or _ _ _ | .xor _ _ _ | .nor _ _ _ => true
  | .slt _ _ _ | .sltu _ _ _ | .rb _ _ | .rbo _ _ => true
  | .addi _ _ _ | .slti _ _ _ | .sltiu _ _ _ | .andi _ _ _ | .ori _ _ _ | .xori _ _ _ | .lui _ _ => true
  | .input _ _ _ | .output _ _ _ | .reti | .lw _ _ _ | .bsi _ _ _ | .bci _ _ _ | .sw _ _ _ => true
  | .j _ | .jal _ => true
  | .add8 _ _ _ | .add16 _ _ _ | .sub8 _ _ _ | .sub16 _ _ _ | .and8 _ _ _ | .and16 _ _ _ => true
  | .or8 _ _ _ | .or16 _ _ _ | .not8 _ _ | .not16 _ _ | .xor8 _ _ _ | .xor16 _ _ _ => true
  | .mul8 _ _ | .mul16 _ _ | .div8 _ _ | .div16 _ _ => true
  | .vmfhi8 _ | .vmfhi16 _ | .vmflo8 _ | .vmflo16 _ => true

end Sys2Proof
end

