-- ==== Sys2Proof/Decode.lean ====
section
/-! DEFINITION. The decoder (30 R86 to R91), total on any bytes and rejecting by name, and the encoder written from
the same tables. An instruction is one 32-bit word, big-endian in instruction memory (R53, R80). -/

namespace Sys2Proof

/-! ### Fields of an instruction word (R81 to R84) -/

/-- Bits 31:26, the major opcode. -/
def opField (w : Word) : BitVec 6 := w.extractLsb' 26 6
/-- Bits 25:21. -/
def rsField (w : Word) : RegNum := w.extractLsb' 21 5
/-- Bits 20:16. -/
def rtField (w : Word) : RegNum := w.extractLsb' 16 5
/-- Bits 15:11. -/
def rdField (w : Word) : RegNum := w.extractLsb' 11 5
/-- Bits 10:6 of an R-Type word: the shift amount, 0..31 (R81). -/
def shamtField (w : Word) : Nat := (w.extractLsb' 6 5).toNat
/-- Bits 5:0 of an R-Type word. -/
def functField (w : Word) : BitVec 6 := w.extractLsb' 0 6
/-- Bits 15:0 of an I-Type word (R82). -/
def immField (w : Word) : BitVec 16 := w.extractLsb' 0 16
/-- Bits 15:0 of a branch: the offset, a signed count of instructions (R85, R92). -/
def offField (w : Word) : Int := (w.extractLsb' 0 16).toInt
/-- Bits 25:0 of a J-Type word (R83, conflict C5). -/
def addrField (w : Word) : BitVec 26 := w.extractLsb' 0 26
/-- Bits 10:6 of a V-Type word, the function select (R84). -/
def vfsField (w : Word) : BitVec 5 := w.extractLsb' 6 5
/-- Bits 1:0 of a V-Type word, the mode select (R84). -/
def mselField (w : Word) : BitVec 2 := w.extractLsb' 0 2

/-! ### Decoding -/

/-- Why bytes are no instruction. -/
inductive DecodeError where
  /-- Fewer than the four bytes of an instruction were given (R80). -/
  | truncated
  /-- The word is in none of the tables of R87, R88, R89: an illegal opcode (R260). -/
  | illegalOp
  /-- A V-Type word with mode select 00 or 11, which hangs the machine (R222). -/
  | vtypeMode
  deriving DecidableEq, Repr

/-- The R-Type function map (R88), for a word whose major opcode is 0x00. -/
def decodeRType (w : Word) : Except DecodeError Instr :=
  match functField w with
  | 0x00#6 => .ok (.sll (rdField w) (rtField w) (shamtField w))
  | 0x02#6 => .ok (.srl (rdField w) (rtField w) (shamtField w))
  | 0x03#6 => .ok (.sra (rdField w) (rtField w) (shamtField w))
  | 0x08#6 => .ok (.jr (rsField w))
  | 0x09#6 => .ok (.jalr (rsField w))
  | 0x0D#6 => .ok .brk
  | 0x10#6 => .ok (.mfhi (rdField w))
  | 0x12#6 => .ok (.mflo (rdField w))
  | 0x18#6 => .ok (.mult (rsField w) (rtField w))
  | 0x1A#6 => .ok (.div (rsField w) (rtField w))
  | 0x1F#6 => .ok .setie
  | 0x20#6 => .ok (.add (rdField w) (rsField w) (rtField w))
  | 0x21#6 => .ok (.addu (rdField w) (rsField w) (rtField w))
  | 0x22#6 => .ok (.sub (rdField w) (rsField w) (rtField w))
  | 0x23#6 => .ok (.subu (rdField w) (rsField w) (rtField w))
  | 0x24#6 => .ok (.and (rdField w) (rsField w) (rtField w))
  | 0x25#6 => .ok (.or (rdField w) (rsField w) (rtField w))
  | 0x26#6 => .ok (.xor (rdField w) (rsField w) (rtField w))
  | 0x27#6 => .ok (.nor (rdField w) (rsField w) (rtField w))
  | 0x2A#6 => .ok (.slt (rdField w) (rsField w) (rtField w))
  | 0x2B#6 => .ok (.sltu (rdField w) (rsField w) (rtField w))
  | 0x2C#6 => .ok (.rb (rdField w) (rsField w))
  | 0x2D#6 => .ok (.rbo (rdField w) (rsField w))
  | 0x34#6 => .ok (.rr (rdField w) (rtField w) (shamtField w))
  | _ => .error .illegalOp

/-- The V-Type function map with mode select 01 (R89). -/
def decodeQuad8 (w : Word) : Except DecodeError Instr :=
  match vfsField w with
  | 0x02#5 => .ok (.add8 (rdField w) (rsField w) (rtField w))
  | 0x03#5 => .ok (.sub8 (rdField w) (rsField w) (rtField w))
  | 0x04#5 => .ok (.and8 (rdField w) (rsField w) (rtField w))
  | 0x05#5 => .ok (.or8 (rdField w) (rsField w) (rtField w))
  | 0x06#5 => .ok (.not8 (rdField w) (rsField w))
  | 0x07#5 => .ok (.xor8 (rdField w) (rsField w) (rtField w))
  | 0x08#5 => .ok (.mul8 (rsField w) (rtField w))
  | 0x09#5 => .ok (.div8 (rsField w) (rtField w))
  | 0x0A#5 => .ok (.vmfhi8 (rdField w))
  | 0x0B#5 => .ok (.vmflo8 (rdField w))
  | _ => .error .illegalOp

/-- The V-Type function map with mode select 10 (R89). -/
def decodeDual16 (w : Word) : Except DecodeError Instr :=
  match vfsField w with
  | 0x02#5 => .ok (.add16 (rdField w) (rsField w) (rtField w))
  | 0x03#5 => .ok (.sub16 (rdField w) (rsField w) (rtField w))
  | 0x04#5 => .ok (.and16 (rdField w) (rsField w) (rtField w))
  | 0x05#5 => .ok (.or16 (rdField w) (rsField w) (rtField w))
  | 0x06#5 => .ok (.not16 (rdField w) (rsField w))
  | 0x07#5 => .ok (.xor16 (rdField w) (rsField w) (rtField w))
  | 0x08#5 => .ok (.mul16 (rsField w) (rtField w))
  | 0x09#5 => .ok (.div16 (rsField w) (rtField w))
  | 0x0A#5 => .ok (.vmfhi16 (rdField w))
  | 0x0B#5 => .ok (.vmflo16 (rdField w))
  | _ => .error .illegalOp

/-- A word whose major opcode is 0x1F: the mode is examined before the function (R86, R222). -/
def decodeVType (w : Word) : Except DecodeError Instr :=
  match mselField w with
  | 0b01#2 => decodeQuad8 w
  | 0b10#2 => decodeDual16 w
  | _ => .error .vtypeMode

/-- The decoding algorithm (R86) with the major opcode map (R87). -/
def decodeWord (w : Word) : Except DecodeError Instr :=
  match opField w with
  | 0x00#6 => decodeRType w
  | 0x01#6 => .ok (.bgez (rsField w) (offField w))
  | 0x02#6 => .ok (.j (addrField w))
  | 0x03#6 => .ok (.jal (addrField w))
  | 0x04#6 => .ok (.beq (rsField w) (rtField w) (offField w))
  | 0x05#6 => .ok (.bne (rsField w) (rtField w) (offField w))
  | 0x06#6 => .ok (.blez (rsField w) (offField w))
  | 0x07#6 => .ok (.bgtz (rsField w) (offField w))
  | 0x08#6 => .ok (.addi (rtField w) (rsField w) (immField w))
  | 0x09#6 => .ok (.bltz (rsField w) (offField w))
  | 0x0A#6 => .ok (.slti (rtField w) (rsField w) (immField w))
  | 0x0B#6 => .ok (.sltiu (rtField w) (rsField w) (immField w))
  | 0x0C#6 => .ok (.andi (rtField w) (rsField w) (immField w))
  | 0x0D#6 => .ok (.ori (rtField w) (rsField w) (immField w))
  | 0x0E#6 => .ok (.xori (rtField w) (rsField w) (immField w))
  | 0x0F#6 => .ok (.lui (rtField w) (immField w))
  | 0x10#6 => .ok (.bdt (offField w))
  | 0x11#6 => .ok (.bdf (offField w))
  | 0x1C#6 => .ok (.input (rtField w) (rsField w) (immField w))
  | 0x1D#6 => .ok (.output (rtField w) (rsField w) (immField w))
  | 0x1E#6 => .ok .reti
  | 0x1F#6 => decodeVType w
  | 0x23#6 => .ok (.lw (rtField w) (rsField w) (immField w))
  | 0x24#6 => .ok (.bsi (rtField w) (rsField w) (immField w))
  | 0x25#6 => .ok (.bci (rtField w) (rsField w) (immField w))
  | 0x2B#6 => .ok (.sw (rtField w) (rsField w) (immField w))
  | _ => .error .illegalOp

/-- Four bytes as a word, the byte at the lowest address most significant (R53). -/
def wordOfBytes (b0 b1 b2 b3 : Byte) : Word := b0 ++ b1 ++ b2 ++ b3

/-- A word's byte of this index, 0 the most significant: the byte at the lowest address (R53). -/
def wordByte (w : Word) : Fin 4 → Byte
  | 0 => w.extractLsb' 24 8
  | 1 => w.extractLsb' 16 8
  | 2 => w.extractLsb' 8 8
  | 3 => w.extractLsb' 0 8

/-- A word as the four bytes the hardware stores, lowest address first (R53, R80). -/
def bytesOfWord (w : Word) : List Byte := [wordByte w 0, wordByte w 1, wordByte w 2, wordByte w 3]

/-- The instruction at the head of a stream of bytes, and the bytes after it (R80). -/
def decode : List Byte → Except DecodeError (Instr × List Byte)
  | b0 :: b1 :: b2 :: b3 :: rest =>
    match decodeWord (wordOfBytes b0 b1 b2 b3) with
    | .ok i => .ok (i, rest)
    | .error e => .error e
  | _ => .error .truncated

/-! ### Encoding -/

/-- An R-Type word (R81). -/
def rWord (rs rt rd shamt : BitVec 5) (funct : BitVec 6) : Word := 0x00#6 ++ rs ++ rt ++ rd ++ shamt ++ funct

/-- An I-Type word (R82). -/
def iWord (op : BitVec 6) (rs rt : RegNum) (imm : BitVec 16) : Word := op ++ rs ++ rt ++ imm

/-- A J-Type word (R83). -/
def jWord (op : BitVec 6) (addr : BitVec 26) : Word := op ++ addr

/-- A V-Type word, its reserved field 0 (R84). -/
def vWord (rs rt rd vfs : BitVec 5) (msel : BitVec 2) : Word := 0x1F#6 ++ rs ++ rt ++ rd ++ vfs ++ 0#4 ++ msel

/-- The `shamt` field of a shift amount. -/
def shamtBits (shamt : Nat) : BitVec 5 := BitVec.ofNat 5 shamt

/-- The immediate field of a branch offset. -/
def offBits (off : Int) : BitVec 16 := BitVec.ofInt 16 off

/-- The word of an instruction, every unused field 0 as the instruction pages show it (R87 to R90). -/
def encode : Instr → Word
  | .sll rd rt shamt => rWord 0 rt rd (shamtBits shamt) 0x00
  | .srl rd rt shamt => rWord 0 rt rd (shamtBits shamt) 0x02
  | .sra rd rt shamt => rWord 0 rt rd (shamtBits shamt) 0x03
  | .jr rs => rWord rs 0 0 0 0x08
  | .jalr rs => rWord rs 0 0 0 0x09
  | .brk => rWord 0 0 0 0 0x0D
  | .mfhi rd => rWord 0 0 rd 0 0x10
  | .mflo rd => rWord 0 0 rd 0 0x12
  | .mult rs rt => rWord rs rt 0 0 0x18
  | .div rs rt => rWord rs rt 0 0 0x1A
  | .setie => rWord 0 0 0 0 0x1F
  | .add rd rs rt => rWord rs rt rd 0 0x20
  | .addu rd rs rt => rWord rs rt rd 0 0x21
  | .sub rd rs rt => rWord rs rt rd 0 0x22
  | .subu rd rs rt => rWord rs rt rd 0 0x23
  | .and rd rs rt => rWord rs rt rd 0 0x24
  | .or rd rs rt => rWord rs rt rd 0 0x25
  | .xor rd rs rt => rWord rs rt rd 0 0x26
  | .nor rd rs rt => rWord rs rt rd 0 0x27
  | .slt rd rs rt => rWord rs rt rd 0 0x2A
  | .sltu rd rs rt => rWord rs rt rd 0 0x2B
  | .rb rd rs => rWord rs 0 rd 0 0x2C
  | .rbo rd rs => rWord rs 0 rd 0 0x2D
  | .rr rd rt shamt => rWord 0 rt rd (shamtBits shamt) 0x34
  | .bgez rs off => iWord 0x01 rs 0 (offBits off)
  | .beq rs rt off => iWord 0x04 rs rt (offBits off)
  | .bne rs rt off => iWord 0x05 rs rt (offBits off)
  | .blez rs off => iWord 0x06 rs 0 (offBits off)
  | .bgtz rs off => iWord 0x07 rs 0 (offBits off)
  | .addi rt rs imm => iWord 0x08 rs rt imm
  | .bltz rs off => iWord 0x09 rs 0 (offBits off)
  | .slti rt rs imm => iWord 0x0A rs rt imm
  | .sltiu rt rs imm => iWord 0x0B rs rt imm
  | .andi rt rs imm => iWord 0x0C rs rt imm
  | .ori rt rs imm => iWord 0x0D rs rt imm
  | .xori rt rs imm => iWord 0x0E rs rt imm
  | .lui rt imm => iWord 0x0F 0 rt imm
  | .bdt off => iWord 0x10 0 0 (offBits off)
  | .bdf off => iWord 0x11 0 0 (offBits off)
  | .input rt rs imm => iWord 0x1C rs rt imm
  | .output rt rs imm => iWord 0x1D rs rt imm
  | .reti => iWord 0x1E 0 0 0
  | .lw rt rs imm => iWord 0x23 rs rt imm
  | .bsi rt rs imm => iWord 0x24 rs rt imm
  | .bci rt rs imm => iWord 0x25 rs rt imm
  | .sw rt rs imm => iWord 0x2B rs rt imm
  | .j addr => jWord 0x02 addr
  | .jal addr => jWord 0x03 addr
  | .add8 rd rs rt => vWord rs rt rd 0x02 0b01
  | .add16 rd rs rt => vWord rs rt rd 0x02 0b10
  | .sub8 rd rs rt => vWord rs rt rd 0x03 0b01
  | .sub16 rd rs rt => vWord rs rt rd 0x03 0b10
  | .and8 rd rs rt => vWord rs rt rd 0x04 0b01
  | .and16 rd rs rt => vWord rs rt rd 0x04 0b10
  | .or8 rd rs rt => vWord rs rt rd 0x05 0b01
  | .or16 rd rs rt => vWord rs rt rd 0x05 0b10
  | .not8 rd rs => vWord rs 0 rd 0x06 0b01
  | .not16 rd rs => vWord rs 0 rd 0x06 0b10
  | .xor8 rd rs rt => vWord rs rt rd 0x07 0b01
  | .xor16 rd rs rt => vWord rs rt rd 0x07 0b10
  | .mul8 rs rt => vWord rs rt 0 0x08 0b01
  | .mul16 rs rt => vWord rs rt 0 0x08 0b10
  | .div8 rs rt => vWord rs rt 0 0x09 0b01
  | .div16 rs rt => vWord rs rt 0 0x09 0b10
  | .vmfhi8 rd => vWord 0 0 rd 0x0A 0b01
  | .vmfhi16 rd => vWord 0 0 rd 0x0A 0b10
  | .vmflo8 rd => vWord 0 0 rd 0x0B 0b01
  | .vmflo16 rd => vWord 0 0 rd 0x0B 0b10

/-- An instruction as the bytes the hardware stores. -/
def encodeBytes (i : Instr) : List Byte := bytesOfWord (encode i)

/-! ### The opcode table's numbering -/

/-- The word of a table row's `nbits` bits, every bit above them 0 (an instruction is one 32-bit word, so the table's
numbering is the word's own). -/
def tableWord (nbits w : Nat) : Word := BitVec.ofNat 32 (w % 2 ^ nbits)

/-- What the decoder reads from the table's instruction, laid out in bytes as the hardware stores it. -/
def decodeTableWord (nbits w : Nat) : Option Instr :=
  match decode (bytesOfWord (tableWord nbits w)) with
  | .ok (i, _) => some i
  | .error _ => none

end Sys2Proof
end

