-- ==== Sys2Proof/Config.lean ====
section
/-! DEFINITION. What the implementation fixes and what the spec leaves free: the open parameters that choose what an
instruction does (00 R6, 92 D6, D13) and the free values, opaque constants without a body. -/

namespace Sys2Proof

/-- The two readings of SRA by two or more places of a negative value (R128). -/
inductive SraFill where
  /-- What the Verilog does: a logical shift, then bit 31 alone is restored. -/
  | rtl
  /-- What the instruction page describes: full sign fill. -/
  | isa
  deriving DecidableEq, Repr

/-- The two OPEN parameters of R6 that choose what an instruction does. They are arguments of the model: State holds
them, every meaning reads them there and no step changes them. -/
structure Variant where
  /-- `SRA_FILL` (R128, D6, conflict C10). -/
  sraFill : SraFill
  /-- `JALR_JUMPS` (R134, D13, conflict C23). -/
  jalrJumps : Bool
  deriving DecidableEq, Repr

/-- The spec's own defaults, `SRA_FILL = rtl` and `JALR_JUMPS = false` (R6, D6, D13; log entries 10 and 11). -/
def defaultVariant : Variant := ⟨.rtl, false⟩

/-- FREE VALUE (R11, D2): the bit of the draw with this number. DESIGN CHOICE, log entry 2. -/
opaque Config.unspecBit : Nat → Bool

/-- FREE VALUE (R11, R46, D2): the byte of the draw with this number. DESIGN CHOICE, log entries 2 and 3. -/
opaque Config.unspecByte : Nat → Byte

/-- FREE VALUE (R11, D2): the halfword of the draw with this number. DESIGN CHOICE, log entry 2. -/
opaque Config.unspecHalf : Nat → Half

/-- FREE VALUE (R11, D2): the word of the draw with this number. DESIGN CHOICE, log entry 2. -/
opaque Config.unspecWord : Nat → Word

/-- What a general register holds at power-up, before anything has written it: one arbitrary value for each
register, drawn once (R45, R46, U5: "a model may fix one arbitrary initial value per location, drawn once; it may
not fix 0"). DESIGN CHOICE, log entry 1. -/
opaque Config.powerOnReg : RegNum → Word

end Sys2Proof
end

