-- ==== Sys2Proof/Machine/State.lean ====
section
/-! DEFINITION. The state of the machine as plain data (spec 10), the reasons a step can stop, and the state after
reset (R45, R300). -/

namespace Sys2Proof.Machine

/-- The flags register (R27). -/
structure Flags where
  /-- Divide by zero, bit 5. -/
  dbz : Bool
  /-- Interrupt enable, bit 4. -/
  ie : Bool
  /-- Carry, bit 3. -/
  c : Bool
  /-- Overflow, bit 2. -/
  v : Bool
  /-- Negative, bit 1. -/
  n : Bool
  /-- Zero, bit 0. -/
  z : Bool
  deriving DecidableEq, Repr

/-- One of the three memories (R44, R50): the bytes that something has written or loaded, as cells of address and
byte with strictly rising addresses. An address that is not listed has no value: reading it gives an `UNSPEC` byte
(R46; DESIGN CHOICE, log entry 3). -/
structure Memory where
  cells : List Host.Cell
  deriving DecidableEq, Repr

/-- The ends of a run (R8): control states without an exit. -/
inductive RunEnd where
  /-- The BREAK instruction was executed: the normal end (R135, R261). -/
  | brk
  /-- A word that decodes to nothing was fetched; it stands in `ir` (R260). -/
  | illegalOp
  /-- A V-Type word with mode select 00 or 11 was fetched (R222, R261). -/
  | stuckVtypeMode
  deriving DecidableEq, Repr

/-- What the host does at one instruction boundary: it presents a level on the interrupt line (R40, D7), may change
bytes of I/O memory (D16), and may pulse the reset pin (R300). -/
structure HostMove where
  /-- The level of the interrupt line at this boundary. -/
  intr : Bool
  /-- Bytes of I/O memory the host changes before this step, in order. -/
  ioWrites : List Host.Cell
  /-- The host pulses reset at this boundary. -/
  reset : Bool
  deriving DecidableEq, Repr

/-- The state of the machine. -/
structure State where
  /-- The general registers `x[0]`..`x[31]` (R20). `State.reg` and `State.setReg` are the only ways to them. -/
  regs : Vector Word 32
  /-- The program counter (R24). -/
  pc : Word
  /-- Scalar HI (R25). -/
  hi : Word
  /-- Scalar LO (R25). -/
  lo : Word
  /-- Vector HI (R26). -/
  vhi : Word
  /-- Vector LO (R26). -/
  vlo : Word
  /-- The flags register (R27). -/
  flags : Flags
  /-- The interrupt acknowledge latch (R41). -/
  intAck : Bool
  /-- The instruction register (R43): the word fetched last. No program reads it; an illegal-opcode end reports it. -/
  ir : Word
  /-- Instruction memory `iM` (R50). -/
  imem : Memory
  /-- Data memory `dM` (R50). -/
  dmem : Memory
  /-- I/O memory `ioM` (R50). -/
  iomem : Memory
  /-- The end of the run the machine has come to, if it has (R8, R260, R261). -/
  ended : Option RunEnd
  /-- The level of the interrupt line (R40): an input, held here between the host's moves. -/
  intr : Bool
  /-- The host's moves at the coming boundaries, the next first. When none is left the line keeps its level and the
  host does nothing else (log entries 5, 6, 7). -/
  hostMoves : List HostMove
  /-- The machine's open parameters `SRA_FILL` and `JALR_JUMPS` (R6): given with the machine, changed by no step. -/
  variant : Variant
  /-- The MODEL's own field: how many `UNSPEC` values have been drawn (R11; log entry 2). -/
  draws : Nat
  deriving DecidableEq, Repr

/-- The OPEN parameters of the machine (R6): what the host and the build give it before the first step. -/
structure Params where
  /-- `SRA_FILL` and `JALR_JUMPS`. -/
  variant : Variant
  /-- `IMEM_IMAGE`, a partial map from byte index to byte (R69, D17; log entry 22). -/
  imemImage : List Host.Cell
  /-- `DMEM_IMAGE`. -/
  dmemImage : List Host.Cell
  /-- `IOMEM_IMAGE`. -/
  iomemImage : List Host.Cell
  /-- `INTR_TRACE`, one level for each boundary, with what else the host does there (D7, D16; log entries 5 to 7). -/
  intrTrace : List HostMove
  deriving DecidableEq, Repr

/-- The defaults of 92 section 3: no image, a line that stays low, and the default variant. -/
def defaultParams : Params := ⟨defaultVariant, [], [], [], []⟩

/-- Why no step is possible: the machine has come to an end of run, which only reset leaves (R8, R261). Raised by
`step` alone, in a state whose `ended` field names the end; no instruction's meaning raises one. Safe: the spec says
that no further step exists. -/
inductive Fault where
  /-- The run ended with BREAK, its normal end (R135, R261); `pc` is the address of the BREAK plus 4. Safe. -/
  | brk (pc : Word)
  /-- The run ended with an illegal opcode (R260): the word and its address plus 4. Safe. -/
  | illegalOp (ir pc : Word)
  /-- The machine hangs on a V-Type word with mode select 00 or 11 (R222, R261). Safe. -/
  | stuckVtypeMode (pc : Word)
  deriving DecidableEq, Repr

/-- Why an instruction has no meaning in this model. No instruction is refused: every arm of `exec` has a meaning. -/
inductive Refusal where
  /-- The instruction of this mnemonic is not modelled. Safe; raised by no arm. -/
  | notModelled (mnemonic : String)
  deriving DecidableEq, Repr

/-- The registers after power-up and reset: `$zero` 0, `$sp` 0x3FC (R45, R301), every other register the arbitrary
value it powered up with (R45, R46, U5; DESIGN CHOICE, log entry 1). -/
def resetRegs : Vector Word 32 :=
  ((Vector.ofFn fun i : Fin 32 => Config.powerOnReg (BitVec.ofFin i)).set 0 0).set 29 0x000003FC

/-- The machine right after power-up and reset (R45, R300), every open parameter of R6 at its default: the images are
empty (R69; log entries 3 and 18), the interrupt line is low with no host move planned (log entry 5), and the variant
is the spec's default (log entries 10 and 11). `State.start` is the same machine with parameters given. -/
def State.reset : State where
  regs := resetRegs
  pc := 0x00000000
  hi := 0
  lo := 0
  vhi := 0
  vlo := 0
  flags := ⟨false, false, false, false, false, false⟩
  intAck := false
  ir := 0
  imem := ⟨[]⟩
  dmem := ⟨[]⟩
  iomem := ⟨[]⟩
  ended := none
  intr := false
  hostMoves := []
  variant := defaultVariant
  draws := 0

end Sys2Proof.Machine
end

