-- ==== Sys2Proof/Machine/Operands.lean ====
section
/-! DEFINITION. Operand forms and result functions: immediates and targets (30 R85), the shifter (40 R111), the
multiplier and divider (R115, R119), comparisons, bit and byte operations, and vector lanes (44 R220). -/

namespace Sys2Proof.Machine

/-! ### Immediates and targets (R85) -/

/-- `sext_16(imm)` (R9, R85). -/
def sext16 (imm : BitVec 16) : Word := imm.signExtend 32

/-- `zext_16(imm)` (R9, R85). -/
def zext16 (imm : BitVec 16) : Word := imm.setWidth 32

/-- `{imm, 0x0000}`, the immediate of LUI (R85, R172). -/
def upperImm (imm : BitVec 16) : Word := imm ++ 0#16

/-- The bit index of BSI and BCI: `imm[5:0]` (R85, R164). -/
def bitIndex (imm : BitVec 16) : Nat := (imm.extractLsb' 0 6).toNat

/-- The target of a taken branch, `pc + 4*signed(imm)` modulo 2^32, `pc` being the branch's address plus 4
(R85, R161, conflict C13). -/
def branchTarget (pc : Word) (off : Int) : Word := pc + BitVec.ofInt 32 (4 * off)

/-- The target of a jump, `pc[31:28]`, the field and two zero bits (R85, R200, conflict C24). -/
def jumpTarget (pc : Word) (addr : BitVec 26) : Word := pc.extractLsb' 28 4 ++ addr ++ 0#2

/-! ### Shifts, rotation and reversals -/

/-- SLL: zeros enter at bit 0 (R125). -/
def shiftLeft (t : Word) (n : Nat) : Word := t <<< n

/-- SRL: zeros enter at bit 31 (R129). -/
def shiftRight (t : Word) (n : Nat) : Word := t >>> n

/-- SRA under each reading of `SRA_FILL` (R128): `rtl` shifts logically and restores bit 31 alone, `isa` fills with
the sign. -/
def shiftRightArith (fill : SraFill) (t : Word) (n : Nat) : Word :=
  match fill with
  | .rtl => BitVec.ofBool t.msb ++ (t >>> n).extractLsb' 0 31
  | .isa => t.sshiftRight n

/-- RR: both shifts on 32 bits (R124). -/
def rotateRight (t : Word) (n : Nat) : Word := if n = 0 then t else (t >>> n) ||| (t <<< (32 - n))

/-- RB: bit `i` of the result is bit `31 - i` of the operand (R122). -/
def reverseBits (a : Word) : Word := a.reverse

/-- RBO: the four bytes in the opposite order (R123). -/
def reverseBytes (a : Word) : Word :=
  a.extractLsb' 0 8 ++ a.extractLsb' 8 8 ++ a.extractLsb' 16 8 ++ a.extractLsb' 24 8

/-- BSI: set bit `k`; an index of 32 or more changes no bit (R171, U20). -/
def setBit (a : Word) (k : Nat) : Word := if k ≤ 31 then a ||| (1#32 <<< k) else a

/-- BCI: clear bit `k`; an index of 32 or more changes no bit (R164, U20). -/
def clearBit (a : Word) (k : Nat) : Word := if k ≤ 31 then a &&& ~~~(1#32 <<< k) else a

/-! ### Comparison, multiplication, division -/

/-- The signed comparison of SLT and SLTI, 1 or 0 (R126, R175). -/
def lessSigned (a b : Word) : Word := if a.toInt < b.toInt then 1 else 0

/-- The unsigned comparison of SLTU and SLTIU, 1 or 0 (R127, R176). -/
def lessUnsigned (a b : Word) : Word := if a.toNat < b.toNat then 1 else 0

/-- MULT: the exact signed product as 64 bits (R119). -/
def product (a b : Word) : BitVec 64 := BitVec.ofInt 64 (a.toInt * b.toInt)

/-- DIV's quotient, truncated toward zero (R115). -/
def quotient (a b : Word) : Word := BitVec.ofInt 32 (a.toInt.tdiv b.toInt)

/-- DIV's remainder, with the sign of the dividend (R115). -/
def remainder (a b : Word) : Word := BitVec.ofInt 32 (a.toInt.tmod b.toInt)

/-- The one division whose quotient, 2^31, does not fit (R115, D11). -/
def divOverflows (a b : Word) : Bool := a == 0x80000000#32 && b == 0xFFFFFFFF#32

/-! ### Vector lanes (R220) -/

/-- Lane `i` of `v` in QUAD8 mode; lane 0 is the least significant (R220). -/
def lane8 (v : Word) (i : Nat) : Byte := v.extractLsb' (8 * i) 8

/-- Lane `i` of `v` in DUAL16 mode (R220). -/
def lane16 (v : Word) (i : Nat) : Half := v.extractLsb' (16 * i) 16

/-- `lanes_8(f, s, t)`: each byte of the result is `f` of the operands' bytes (R220). -/
def lanes8 (f : Byte → Byte → Byte) (s t : Word) : Word :=
  f (lane8 s 3) (lane8 t 3) ++ f (lane8 s 2) (lane8 t 2) ++ f (lane8 s 1) (lane8 t 1) ++ f (lane8 s 0) (lane8 t 0)

/-- `lanes_16(f, s, t)` (R220). -/
def lanes16 (f : Half → Half → Half) (s t : Word) : Word :=
  f (lane16 s 1) (lane16 t 1) ++ f (lane16 s 0) (lane16 t 0)

/-- One lane of MUL8: the exact unsigned 16-bit product (R229). -/
def mulLane8 (s t : Word) (i : Nat) : Half := BitVec.ofNat 16 ((lane8 s i).toNat * (lane8 t i).toNat)

/-- One lane of MUL16: the exact unsigned 32-bit product (R230). -/
def mulLane16 (s t : Word) (i : Nat) : Word := BitVec.ofNat 32 ((lane16 s i).toNat * (lane16 t i).toNat)

/-- One lane of DIV8, `{r_i, q_i}`; a zero divisor makes both bytes free values, drawn from number `k` on (R227, D12,
U4; log entry 14). -/
def divLane8 (k : Nat) (s t : Word) (i : Nat) : Half :=
  if lane8 t i = 0 then Config.unspecByte (k + 1) ++ Config.unspecByte k
  else (lane8 s i % lane8 t i) ++ (lane8 s i / lane8 t i)

/-- One lane of DIV16, `{r_i, q_i}`; a zero divisor makes both halfwords free values (R228, D12, U4; log entry 14). -/
def divLane16 (k : Nat) (s t : Word) (i : Nat) : Word :=
  if lane16 t i = 0 then Config.unspecHalf (k + 1) ++ Config.unspecHalf k
  else (lane16 s i % lane16 t i) ++ (lane16 s i / lane16 t i)

end Sys2Proof.Machine
end

