-- ==== Sys2Proof/Machine/Flags.lean ====
section
/-! DEFINITION. The flag computations (10 R28 to R37): what the ALU drives on each of the five status flags, `none`
where it drives `x`, and the flags register as a word (R27). -/

namespace Sys2Proof.Machine

/-- The ALU's outputs for the five status flags; `none` is `UNSPEC` (R28). IE is no output of the ALU. -/
structure StatusOut where
  dbz : Option Bool
  c : Option Bool
  v : Option Bool
  n : Option Bool
  z : Option Bool
  deriving DecidableEq, Repr

/-- Z: the result is zero. -/
def isZero (y : Word) : Bool := y == 0

/-- `FL_ADD(a, b)` (R29). -/
def flAdd (a b : Word) : StatusOut :=
  let sum33 : BitVec 33 := a.setWidth 33 + b.setWidth 33
  let y := a + b
  { dbz := none
    c := some (sum33.getLsbD 32)
    v := some ((a.msb && b.msb && !y.msb) || (!a.msb && !b.msb && y.msb))
    n := some y.msb
    z := some (isZero y) }

/-- `FL_ADDU(a, b)`: V is the carry, N is UNSPEC (R30). -/
def flAddu (a b : Word) : StatusOut :=
  { dbz := none, c := (flAdd a b).c, v := (flAdd a b).c, n := none, z := (flAdd a b).z }

/-- `FL_SUB(a, b)`: C is the borrow (R31). -/
def flSub (a b : Word) : StatusOut :=
  let diff33 : BitVec 33 := a.setWidth 33 - b.setWidth 33
  let y := a - b
  { dbz := none
    c := some (diff33.getLsbD 32)
    v := some ((!a.msb && b.msb && y.msb) || (a.msb && !b.msb && !y.msb))
    n := some y.msb
    z := some (isZero y) }

/-- `FL_SUBU(a, b)`: V is the borrow, N is UNSPEC (R32). -/
def flSubu (a b : Word) : StatusOut :=
  { dbz := none, c := (flSub a b).c, v := (flSub a b).c, n := none, z := (flSub a b).z }

/-- `FL_LOGIC(y)` (R33). -/
def flLogic (y : Word) : StatusOut :=
  { dbz := none, c := none, v := none, n := some y.msb, z := some (isZero y) }

/-- `FL_SLT(y)`: N is 0 (R34). -/
def flSlt (y : Word) : StatusOut :=
  { dbz := none, c := none, v := none, n := some false, z := some (isZero y) }

/-- `FL_SLTU(y)`: N is UNSPEC (R34). -/
def flSltu (y : Word) : StatusOut :=
  { dbz := none, c := none, v := none, n := none, z := some (isZero y) }

/-- `FL_SHIFT(SLL, t)`: the flags of a one-place shift of `t`, whatever the shift amount (R35, conflict C9). -/
def flShiftLeft (t : Word) : StatusOut :=
  { dbz := none, c := some (t.getLsbD 31), v := none, n := some (t.getLsbD 30), z := some (isZero (t <<< 1)) }

/-- `FL_SHIFT(SRL, t)` (R35). -/
def flShiftRight (t : Word) : StatusOut :=
  { dbz := none, c := some (t.getLsbD 0), v := none, n := some false, z := some (isZero (t >>> 1)) }

/-- `FL_SHIFT(SRA, t)`: as SRL, but N is bit 31 and Z looks at bits 31:1 (R35). -/
def flShiftRightArith (t : Word) : StatusOut :=
  { dbz := none, c := some (t.getLsbD 0), v := none, n := some t.msb, z := some (isZero (t >>> 1)) }

/-- `FL_MULT(p)` (R36). -/
def flMult (p : BitVec 64) : StatusOut :=
  { dbz := none, c := none, v := none, n := some p.msb, z := some (p == 0) }

/-- `FL_DIV(q, r, divisor)` for a divisor that is not zero (R37): Z needs quotient and remainder both zero. -/
def flDiv (q r : Word) : StatusOut :=
  { dbz := some false, c := none, v := none, n := some q.msb, z := some (isZero q && isZero r) }

/-- `FL_DIV` for a zero divisor (R37): DBZ alone is defined. -/
def flDivByZero : StatusOut :=
  { dbz := some true, c := none, v := none, n := none, z := none }

/-- The flags of the division that overflows (R115, D11): DBZ alone is defined. -/
def flDivOverflow : StatusOut :=
  { dbz := some false, c := none, v := none, n := none, z := none }

/-- A status flag's new value: what the ALU drives, or the free value of draw `k` (R11, R28). -/
def drivenBit (o : Option Bool) (k : Nat) : Bool := o.getD (Config.unspecBit k)

/-- The flags after an instruction that writes them: all five status flags replaced at once, IE copied (R28). The
five draws are numbered from `k` on. -/
def Flags.replace (f : Flags) (o : StatusOut) (k : Nat) : Flags :=
  { dbz := drivenBit o.dbz k
    ie := f.ie
    c := drivenBit o.c (k + 1)
    v := drivenBit o.v (k + 2)
    n := drivenBit o.n (k + 3)
    z := drivenBit o.z (k + 4) }

/-- How many draws a write of the status flags takes. -/
def statusDraws : Nat := 5

/-- The flags register as the word that interrupt entry stores: bits 31:6 zero, then DBZ, IE, C, V, N, Z (R27). -/
def flagsWord (f : Flags) : Word :=
  0#26 ++ BitVec.ofBool f.dbz ++ BitVec.ofBool f.ie ++ BitVec.ofBool f.c ++ BitVec.ofBool f.v ++ BitVec.ofBool f.n
    ++ BitVec.ofBool f.z

/-- The flags that RETI loads from a word: its low six bits (R27, R212). -/
def flagsOfWord (w : Word) : Flags :=
  { dbz := w.getLsbD 5, ie := w.getLsbD 4, c := w.getLsbD 3, v := w.getLsbD 2, n := w.getLsbD 1, z := w.getLsbD 0 }

end Sys2Proof.Machine
end

