-- ==== Sys2Proof/Machine/Ops.lean ====
section
/-! DEFINITION. The named operations over registers, memories and flags; taking the interrupt and returning from it
(60 R262 to R266); fetching (30 R80); the machine with its parameters given (00 R6, 20 R69) and the reset pulse (70 R300); the ends of a run
(60 R260, R261). -/

namespace Sys2Proof.Machine

/-! ### General registers (R20, R21) -/

/-- `x[r]`; register 0 reads 0 (R21). -/
def State.reg (s : State) (r : RegNum) : Word :=
  if r = 0 then 0 else s.regs[r.toNat]'r.isLt

/-- `x[r] <- v`; a write to register 0 is discarded (R21). -/
def State.setReg (s : State) (r : RegNum) (v : Word) : State :=
  if r = 0 then s else { s with regs := s.regs.set r.toNat v r.isLt }

/-- The number of the stack pointer `$sp` (R23). -/
def spReg : RegNum := 29

/-- The number of the return address register `$ra` (R23). -/
def raReg : RegNum := 31

/-- `pc <- a` (R24). -/
def State.setPc (s : State) (a : Word) : State := { s with pc := a }

/-- `hi` and `lo` (R25). -/
def State.setHiLo (s : State) (h l : Word) : State := { s with hi := h, lo := l }

/-- `vhi` and `vlo` (R26). -/
def State.setVHiLo (s : State) (h l : Word) : State := { s with vhi := h, vlo := l }

/-! ### Draws of free values and the flags (R11, R28) -/

/-- `n` more `UNSPEC` values have been drawn. -/
def State.drew (s : State) (n : Nat) : State := { s with draws := s.draws + n }

/-- `flags <- FL_xxx(...)`: the five status flags replaced at once by the ALU's outputs (R28). -/
def State.setStatus (s : State) (o : StatusOut) : State :=
  { s with flags := s.flags.replace o s.draws, draws := s.draws + statusDraws }

/-- All six flags replaced (RETI, R212). -/
def State.setFlags (s : State) (f : Flags) : State := { s with flags := f }

/-- `fl.IE <- b` (R28). -/
def State.setIe (s : State) (b : Bool) : State := { s with flags := { s.flags with ie := b } }

/-- `int_ack <- b` (R41). -/
def State.setIntAck (s : State) (b : Bool) : State := { s with intAck := b }

/-! ### Memories (20 R50 to R60) -/

/-- `idx(a) = unsigned(a[11:0])`: the low 12 bits of an address reach a memory (R52, D20; log entry 15). -/
def idx (a : Word) : Nat := (a.extractLsb' 0 12).toNat

/-- How many bytes of a memory can be reached: 4096 and the three overhang bytes (R51, R60, D5). -/
def memBytes : Nat := 4099

/-- The value listed for an index. -/
def lookupCell : List Host.Cell → Nat → Option Byte
  | [], _ => none
  | (k, b) :: rest, i => if k = i then some b else lookupCell rest i

/-- The list with the value of one index set, its order kept. -/
def insertCell : List Host.Cell → Nat → Byte → List Host.Cell
  | [], i, b => [(i, b)]
  | (k, c) :: rest, i, b =>
    if i < k then (i, b) :: (k, c) :: rest
    else if i = k then (i, b) :: rest
    else (k, c) :: insertCell rest i b

/-- The byte at an index: `none` where nothing has loaded or written it (R46). -/
def Memory.byte? (m : Memory) (i : Nat) : Option Byte := lookupCell m.cells i

/-- Write one byte. -/
def Memory.set (m : Memory) (i : Nat) (b : Byte) : Memory := ⟨insertCell m.cells i b⟩

/-- The canonical form: indices strictly rising, each one that can be reached (R60). No byte equals what an unlisted
index reads as, since that is no value at all. -/
abbrev Memory.wf (m : Memory) : Prop :=
  m.cells.Pairwise (fun a b => a.1 < b.1) ∧ ∀ c ∈ m.cells, c.1 < memBytes

/-- The byte a read finds at an index: what is there, or the free byte of draw `k` (R46, R56, U5; log entry 3). -/
def Memory.byteOrFree (m : Memory) (i k : Nat) : Byte := (m.byte? i).getD (Config.unspecByte k)

/-- The word at index `i`, big-endian, from the four bytes `i`..`i+3` without wrap-around (R53, R55, R56, R60). The
draws for bytes without a value are numbered from `k` on. -/
def Memory.wordAt (m : Memory) (i k : Nat) : Word :=
  wordOfBytes (m.byteOrFree i k) (m.byteOrFree (i + 1) (k + 1)) (m.byteOrFree (i + 2) (k + 2))
    (m.byteOrFree (i + 3) (k + 3))

/-- Write the word at index `i`, big-endian (R53, R57, R60). -/
def Memory.setWord (m : Memory) (i : Nat) (v : Word) : Memory :=
  (((m.set i (wordByte v 0)).set (i + 1) (wordByte v 1)).set (i + 2) (wordByte v 2)).set (i + 3) (wordByte v 3)

/-- How many draws a read of a word takes. -/
def wordDraws : Nat := 4

/-- `IMemRead(a)` (R55). -/
def State.imemWord (s : State) (a : Word) : Word := s.imem.wordAt (idx a) s.draws

/-- `MemRead(a, 4)` (R56). -/
def State.dmemWord (s : State) (a : Word) : Word := s.dmem.wordAt (idx a) s.draws

/-- `IoRead(a)` (R58). -/
def State.iomemWord (s : State) (a : Word) : Word := s.iomem.wordAt (idx a) s.draws

/-- `MemWrite(a, 4, v)` (R57). -/
def State.setDmemWord (s : State) (a v : Word) : State := { s with dmem := s.dmem.setWord (idx a) v }

/-- `IoWrite(a, v)` (R59). -/
def State.setIomemWord (s : State) (a v : Word) : State := { s with iomem := s.iomem.setWord (idx a) v }

/-! ### Branches -/

/-- A branch: `pc <- pc + 4*signed(imm)` if it is taken (R161). -/
def State.branchIf (s : State) (taken : Bool) (off : Int) : State :=
  if taken then s.setPc (branchTarget s.pc off) else s

/-! ### Ends of a run (R8, R260, R261) -/

/-- The run ends: nothing changes but the control state (R260, R261). -/
def State.endRun (s : State) (e : RunEnd) : State := { s with ended := some e }

/-- What a machine that has come to the end of its run answers: no step is possible (R8, R261). -/
def State.endFault (s : State) : RunEnd → Fault
  | .brk => .brk s.pc
  | .illegalOp => .illegalOp s.ir s.pc
  | .stuckVtypeMode => .stuckVtypeMode s.pc

/-! ### The interrupt (R262 to R266) -/

/-- The address of the interrupt vector word in data memory (R62, R265). -/
def vectorAddr : Word := 0x000003FC

/-- Interrupt entry (R265): the return address and the flags word are pushed, the handler's address is read from the
vector after the pushes, IE is cleared and the acknowledge latch set. -/
def State.interruptEntry (s : State) : State :=
  let sp := s.reg spReg
  let s1 := s.setDmemWord (sp - 4) s.pc
  let s2 := s1.setDmemWord (sp - 8) (flagsWord s.flags)
  let s3 := s2.setReg spReg (sp - 8)
  let s4 := (s3.setPc (s3.dmemWord vectorAddr)).drew wordDraws
  (s4.setIe false).setIntAck true

/-- Return from the interrupt, the effect of RETI (R212, R266): the flags word and the return address are popped. -/
def State.interruptReturn (s : State) : State :=
  let sp := s.reg spReg
  let w := s.dmemWord sp
  let s1 := s.drew wordDraws
  let a := s1.dmemWord (sp + 4)
  let s2 := s1.drew wordDraws
  ((s2.setFlags (flagsOfWord w)).setPc a).setReg spReg (sp + 8)

/-- The three outcomes of the interrupt check (R262). -/
inductive BoundaryAction where
  /-- An interrupt is accepted. -/
  | enter
  /-- An instruction is fetched. -/
  | fetch
  /-- A masked request blocks the fetch (R263). -/
  | blocked
  deriving DecidableEq, Repr

/-- The interrupt check at the beginning of a step (R262). -/
def State.boundaryAction (s : State) : BoundaryAction :=
  if s.intAck = false ∧ s.intr = true ∧ s.flags.ie = true then .enter
  else if s.intr = false ∨ s.intAck = true then .fetch
  else .blocked

/-- The acknowledge latch clears at a fetch that finds it set and the line low (R264). -/
def State.settleAck (s : State) : State :=
  if s.intAck = true ∧ s.intr = false then s.setIntAck false else s

/-! ### Fetch (R80) -/

/-- `ir <- IMemRead(pc); pc <- pc + 4` (R80). A word with bytes that were never loaded is free in those bits (U12; log
entry 4). -/
def State.fetch (s : State) : State :=
  { s with ir := s.imemWord s.pc, pc := s.pc + 4, draws := s.draws + wordDraws }

/-- The end of run that a word without an instruction brings (R86, R260, R222). -/
def runEndOf : DecodeError → RunEnd
  | .vtypeMode => .stuckVtypeMode
  | .illegalOp => .illegalOp
  | .truncated => .illegalOp

/-! ### The host's moves and reset -/

/-- The host's move at this boundary: the next one planned, or none but the line's level (D7, D16). -/
def State.hostMove (s : State) : HostMove :=
  match s.hostMoves with
  | [] => ⟨s.intr, [], false⟩
  | m :: _ => m

/-- The host changes bytes of a memory, in order; an index that is no byte of it names nothing (D16, D17, R60). -/
def hostWrites : List Host.Cell → Memory → Memory
  | [], m => m
  | (i, b) :: rest, m => hostWrites rest (if i < memBytes then m.set i b else m)

/-- The state with the host's move at this boundary made (D7, D16). -/
def State.atBoundary (s : State) : State :=
  { s with
    intr := s.hostMove.intr
    iomem := hostWrites s.hostMove.ioWrites s.iomem
    hostMoves := s.hostMoves.tail }

/-- A memory that the host has loaded from an image; every byte outside the image has no value (R69, D17). -/
def loadImage (image : List Host.Cell) : Memory := hostWrites image ⟨[]⟩

/-- The machine right after power-up and reset with these parameters (R6, R45, R69): the images are loaded, the host's
trace lies ahead, all else is as in `State.reset`. -/
def State.start (p : Params) : State :=
  { State.reset with
    imem := loadImage p.imemImage
    dmem := loadImage p.dmemImage
    iomem := loadImage p.iomemImage
    hostMoves := p.intrTrace
    variant := p.variant }

/-- The reset pulse and the control state RESET as one event (R300): every register it does not name, and the three
memories, keep what they held. -/
def State.resetPulse (s : State) : State :=
  { s with
    pc := 0x00000000
    regs := (s.regs.set 0 0).set 29 0x000003FC
    hi := 0
    lo := 0
    vhi := 0
    vlo := 0
    flags := ⟨false, false, false, false, false, false⟩
    intAck := false
    ir := 0
    ended := none }

end Sys2Proof.Machine
end

