-- ==== Sys2Proof/Machine/Enhancements.lean ====
section
/-! DEFINITION. The enhancement instructions INPUT, OUTPUT and RETI (spec 43). In every meaning `s.pc` is already the instruction's address plus 4 (00 R7). -/

namespace Sys2Proof.Machine

/-- INPUT: LW with the I/O memory in place of data memory (R210). -/
def execInput (rt rs : RegNum) (imm : BitVec 16) (s : State) : Host.Outcome State Fault Refusal :=
  let a := s.reg rs
  let s1 := s.setStatus (flAdd a (sext16 imm))
  .next ((s1.drew wordDraws).setReg rt (s1.iomemWord (a + sext16 imm)))

/-- OUTPUT: SW with the I/O memory in place of data memory (R211). -/
def execOutput (rt rs : RegNum) (imm : BitVec 16) (s : State) : Host.Outcome State Fault Refusal :=
  let a := s.reg rs
  let s1 := s.setStatus (flAdd a (sext16 imm))
  .next (s1.setIomemWord (a + sext16 imm) (s.reg rt))

/-- RETI: the return from interrupt, not checked for being in a handler (R212, U21). -/
def execReti (s : State) : Host.Outcome State Fault Refusal :=
  .next s.interruptReturn

end Sys2Proof.Machine
end

