-- ==== Sys2Proof/Machine/IType.lean ====
section
/-! DEFINITION. The I-Type instructions (spec 41). In every meaning `s.pc` is already the instruction's address plus 4 (00 R7). -/

namespace Sys2Proof.Machine

/-- ADDI: the destination is written even on overflow (R162). -/
def execAddi (rt rs : RegNum) (imm : BitVec 16) (s : State) : Host.Outcome State Fault Refusal :=
  let a := s.reg rs
  .next ((s.setStatus (flAdd a (sext16 imm))).setReg rt (a + sext16 imm))

/-- ANDI (R163). -/
def execAndi (rt rs : RegNum) (imm : BitVec 16) (s : State) : Host.Outcome State Fault Refusal :=
  let y := s.reg rs &&& zext16 imm
  .next ((s.setStatus (flLogic y)).setReg rt y)

/-- ORI (R174). -/
def execOri (rt rs : RegNum) (imm : BitVec 16) (s : State) : Host.Outcome State Fault Refusal :=
  let y := s.reg rs ||| zext16 imm
  .next ((s.setStatus (flLogic y)).setReg rt y)

/-- XORI (R178). -/
def execXori (rt rs : RegNum) (imm : BitVec 16) (s : State) : Host.Outcome State Fault Refusal :=
  let y := s.reg rs ^^^ zext16 imm
  .next ((s.setStatus (flLogic y)).setReg rt y)

/-- LUI (R172). -/
def execLui (rt : RegNum) (imm : BitVec 16) (s : State) : Host.Outcome State Fault Refusal :=
  .next ((s.setStatus (flLogic (upperImm imm))).setReg rt (upperImm imm))

/-- SLTI (R175). -/
def execSlti (rt rs : RegNum) (imm : BitVec 16) (s : State) : Host.Outcome State Fault Refusal :=
  let y := lessSigned (s.reg rs) (sext16 imm)
  .next ((s.setStatus (flSlt y)).setReg rt y)

/-- SLTIU: the immediate is sign-extended, then compared unsigned (R176, conflict C21). -/
def execSltiu (rt rs : RegNum) (imm : BitVec 16) (s : State) : Host.Outcome State Fault Refusal :=
  let y := lessUnsigned (s.reg rs) (sext16 imm)
  .next ((s.setStatus (flSltu y)).setReg rt y)

/-- BSI: no flag changes (R171). -/
def execBsi (rt rs : RegNum) (imm : BitVec 16) (s : State) : Host.Outcome State Fault Refusal :=
  .next (s.setReg rt (setBit (s.reg rs) (bitIndex imm)))

/-- BCI: no flag changes (R164). -/
def execBci (rt rs : RegNum) (imm : BitVec 16) (s : State) : Host.Outcome State Fault Refusal :=
  .next (s.setReg rt (clearBit (s.reg rs) (bitIndex imm)))

/-- BEQ: the flags are written whether or not the branch is taken (R167). -/
def execBeq (rs rt : RegNum) (off : Int) (s : State) : Host.Outcome State Fault Refusal :=
  let a := s.reg rs
  let b := s.reg rt
  .next ((s.setStatus (flSub a b)).branchIf (a == b) off)

/-- BNE (R170). -/
def execBne (rs rt : RegNum) (off : Int) (s : State) : Host.Outcome State Fault Refusal :=
  let a := s.reg rs
  let b := s.reg rt
  .next ((s.setStatus (flSub a b)).branchIf (a != b) off)

/-- BLEZ (R169). -/
def execBlez (rs : RegNum) (off : Int) (s : State) : Host.Outcome State Fault Refusal :=
  let a := s.reg rs
  .next ((s.setStatus (flLogic a)).branchIf (a.msb || a == 0) off)

/-- BGTZ (R168). -/
def execBgtz (rs : RegNum) (off : Int) (s : State) : Host.Outcome State Fault Refusal :=
  let a := s.reg rs
  .next ((s.setStatus (flLogic a)).branchIf (!a.msb && a != 0) off)

/-- BLTZ (R181). -/
def execBltz (rs : RegNum) (off : Int) (s : State) : Host.Outcome State Fault Refusal :=
  let a := s.reg rs
  .next ((s.setStatus (flLogic a)).branchIf (a.msb) off)

/-- BGEZ (R180, conflict C18). -/
def execBgez (rs : RegNum) (off : Int) (s : State) : Host.Outcome State Fault Refusal :=
  let a := s.reg rs
  .next ((s.setStatus (flLogic a)).branchIf (!a.msb || a == 0) off)

/-- BDT: no flag changes (R166). With DBZ free either way is possible (U6). -/
def execBdt (off : Int) (s : State) : Host.Outcome State Fault Refusal :=
  .next (s.branchIf s.flags.dbz off)

/-- BDF: no flag changes (R165). With DBZ free either way is possible (U6). -/
def execBdf (off : Int) (s : State) : Host.Outcome State Fault Refusal :=
  .next (s.branchIf (!s.flags.dbz) off)

/-- LW: the flags are those of the address addition (R173, conflict C8). -/
def execLw (rt rs : RegNum) (imm : BitVec 16) (s : State) : Host.Outcome State Fault Refusal :=
  let a := s.reg rs
  let s1 := s.setStatus (flAdd a (sext16 imm))
  .next ((s1.drew wordDraws).setReg rt (s1.dmemWord (a + sext16 imm)))

/-- SW: the flags are those of the address addition (R177). -/
def execSw (rt rs : RegNum) (imm : BitVec 16) (s : State) : Host.Outcome State Fault Refusal :=
  let a := s.reg rs
  let s1 := s.setStatus (flAdd a (sext16 imm))
  .next (s1.setDmemWord (a + sext16 imm) (s.reg rt))

end Sys2Proof.Machine
end

