-- ==== Sys2Proof/Machine/JType.lean ====
section
/-! DEFINITION. The J-Type instructions (spec 42). In every meaning `s.pc` is already the instruction's address plus 4 (00 R7). -/

namespace Sys2Proof.Machine

/-- J (R200). -/
def execJ (addr : BitVec 26) (s : State) : Host.Outcome State Fault Refusal :=
  .next (s.setPc (jumpTarget s.pc addr))

/-- JAL: the link is the address of the JAL plus 4; there is no delay slot (R201, D19). -/
def execJal (addr : BitVec 26) (s : State) : Host.Outcome State Fault Refusal :=
  .next ((s.setReg raReg s.pc).setPc (jumpTarget s.pc addr))

end Sys2Proof.Machine
end

