-- ==== Sys2Proof/Machine/RType.lean ====
section
/-! DEFINITION. The R-Type instructions (spec 40). In every meaning `s.pc` is already the instruction's address plus 4 (00 R7). -/

namespace Sys2Proof.Machine

/-- ADD (R112). -/
def execAdd (rd rs rt : RegNum) (s : State) : Host.Outcome State Fault Refusal :=
  let a := s.reg rs
  let b := s.reg rt
  .next ((s.setStatus (flAdd a b)).setReg rd (a + b))

/-- ADDU (R113). -/
def execAddu (rd rs rt : RegNum) (s : State) : Host.Outcome State Fault Refusal :=
  let a := s.reg rs
  let b := s.reg rt
  .next ((s.setStatus (flAddu a b)).setReg rd (a + b))

/-- SUB (R130). -/
def execSub (rd rs rt : RegNum) (s : State) : Host.Outcome State Fault Refusal :=
  let a := s.reg rs
  let b := s.reg rt
  .next ((s.setStatus (flSub a b)).setReg rd (a - b))

/-- SUBU (R131). -/
def execSubu (rd rs rt : RegNum) (s : State) : Host.Outcome State Fault Refusal :=
  let a := s.reg rs
  let b := s.reg rt
  .next ((s.setStatus (flSubu a b)).setReg rd (a - b))

/-- AND (R114). -/
def execAnd (rd rs rt : RegNum) (s : State) : Host.Outcome State Fault Refusal :=
  let y := s.reg rs &&& s.reg rt
  .next ((s.setStatus (flLogic y)).setReg rd y)

/-- OR (R121). -/
def execOr (rd rs rt : RegNum) (s : State) : Host.Outcome State Fault Refusal :=
  let y := s.reg rs ||| s.reg rt
  .next ((s.setStatus (flLogic y)).setReg rd y)

/-- XOR (R132). -/
def execXor (rd rs rt : RegNum) (s : State) : Host.Outcome State Fault Refusal :=
  let y := s.reg rs ^^^ s.reg rt
  .next ((s.setStatus (flLogic y)).setReg rd y)

/-- NOR (R120). -/
def execNor (rd rs rt : RegNum) (s : State) : Host.Outcome State Fault Refusal :=
  let y := ~~~(s.reg rs ||| s.reg rt)
  .next ((s.setStatus (flLogic y)).setReg rd y)

/-- SLT (R126). -/
def execSlt (rd rs rt : RegNum) (s : State) : Host.Outcome State Fault Refusal :=
  let y := lessSigned (s.reg rs) (s.reg rt)
  .next ((s.setStatus (flSlt y)).setReg rd y)

/-- SLTU (R127). -/
def execSltu (rd rs rt : RegNum) (s : State) : Host.Outcome State Fault Refusal :=
  let y := lessUnsigned (s.reg rs) (s.reg rt)
  .next ((s.setStatus (flSltu y)).setReg rd y)

/-- SLL: the flags are those of a one-place shift (R125, R35). -/
def execSll (rd rt : RegNum) (shamt : Nat) (s : State) : Host.Outcome State Fault Refusal :=
  let t := s.reg rt
  .next ((s.setStatus (flShiftLeft t)).setReg rd (shiftLeft t shamt))

/-- SRL (R129, R35). -/
def execSrl (rd rt : RegNum) (shamt : Nat) (s : State) : Host.Outcome State Fault Refusal :=
  let t := s.reg rt
  .next ((s.setStatus (flShiftRight t)).setReg rd (shiftRight t shamt))

/-- SRA, its fill by the parameter `SRA_FILL` (R128, R35). -/
def execSra (rd rt : RegNum) (shamt : Nat) (s : State) : Host.Outcome State Fault Refusal :=
  let t := s.reg rt
  .next ((s.setStatus (flShiftRightArith t)).setReg rd (shiftRightArith s.variant.sraFill t shamt))

/-- RR: no flag changes (R124, conflict C16). -/
def execRr (rd rt : RegNum) (shamt : Nat) (s : State) : Host.Outcome State Fault Refusal :=
  .next (s.setReg rd (rotateRight (s.reg rt) shamt))

/-- RB: no flag changes (R122). -/
def execRb (rd rs : RegNum) (s : State) : Host.Outcome State Fault Refusal :=
  .next (s.setReg rd (reverseBits (s.reg rs)))

/-- RBO: no flag changes (R123). -/
def execRbo (rd rs : RegNum) (s : State) : Host.Outcome State Fault Refusal :=
  .next (s.setReg rd (reverseBytes (s.reg rs)))

/-- MULT (R119). -/
def execMult (rs rt : RegNum) (s : State) : Host.Outcome State Fault Refusal :=
  let p := product (s.reg rs) (s.reg rt)
  .next ((s.setHiLo (p.extractLsb' 32 32) (p.extractLsb' 0 32)).setStatus (flMult p))

/-- DIV (R115). A zero divisor and the overflowing division write free values to HI and LO (D10, D11; log entries 12
and 13); the machine goes on. -/
def execDiv (rs rt : RegNum) (s : State) : Host.Outcome State Fault Refusal :=
  let a := s.reg rs
  let b := s.reg rt
  let free := (s.setHiLo (Config.unspecWord (s.draws + 1)) (Config.unspecWord s.draws)).drew 2
  .next
    (if b = 0 then free.setStatus flDivByZero
    else if divOverflows a b then free.setStatus flDivOverflow
    else (s.setHiLo (remainder a b) (quotient a b)).setStatus (flDiv (quotient a b) (remainder a b)))

/-- MFHI (R117). -/
def execMfhi (rd : RegNum) (s : State) : Host.Outcome State Fault Refusal :=
  .next (s.setReg rd s.hi)

/-- MFLO (R118). -/
def execMflo (rd : RegNum) (s : State) : Host.Outcome State Fault Refusal :=
  .next (s.setReg rd s.lo)

/-- JR: all 32 bits, no alignment check (R116). -/
def execJr (rs : RegNum) (s : State) : Host.Outcome State Fault Refusal :=
  .next (s.setPc (s.reg rs))

/-- JALR: it links to register 31, and jumps only if `JALR_JUMPS`; the target is read before the link is written
(R134). -/
def execJalr (rs : RegNum) (s : State) : Host.Outcome State Fault Refusal :=
  let target := s.reg rs
  let s1 := s.setReg raReg s.pc
  .next (if s.variant.jalrJumps then s1.setPc target else s1)

/-- BREAK: the run ends, nothing else changes (R135, R261; log entry 9). -/
def execBrk (s : State) : Host.Outcome State Fault Refusal :=
  .next (s.endRun .brk)

/-- SETIE: IE is toggled (R136). -/
def execSetie (s : State) : Host.Outcome State Fault Refusal :=
  .next (s.setIe (!s.flags.ie))

end Sys2Proof.Machine
end

