-- ==== Sys2Proof/Machine/VType.lean ====
section
/-! DEFINITION. The V-Type instructions of the Vector Operations Unit (spec 44); none changes a flag (R220). In every meaning `s.pc` is already the instruction's address plus 4 (00 R7). -/

namespace Sys2Proof.Machine

/-- ADD8 (R223). -/
def execAdd8 (rd rs rt : RegNum) (s : State) : Host.Outcome State Fault Refusal :=
  .next (s.setReg rd (lanes8 (· + ·) (s.reg rs) (s.reg rt)))

/-- ADD16 (R224). -/
def execAdd16 (rd rs rt : RegNum) (s : State) : Host.Outcome State Fault Refusal :=
  .next (s.setReg rd (lanes16 (· + ·) (s.reg rs) (s.reg rt)))

/-- SUB8 (R235). -/
def execSub8 (rd rs rt : RegNum) (s : State) : Host.Outcome State Fault Refusal :=
  .next (s.setReg rd (lanes8 (· - ·) (s.reg rs) (s.reg rt)))

/-- SUB16 (R236). -/
def execSub16 (rd rs rt : RegNum) (s : State) : Host.Outcome State Fault Refusal :=
  .next (s.setReg rd (lanes16 (· - ·) (s.reg rs) (s.reg rt)))

/-- AND8 (R225). -/
def execAnd8 (rd rs rt : RegNum) (s : State) : Host.Outcome State Fault Refusal :=
  .next (s.setReg rd (s.reg rs &&& s.reg rt))

/-- AND16 (R226). -/
def execAnd16 (rd rs rt : RegNum) (s : State) : Host.Outcome State Fault Refusal :=
  .next (s.setReg rd (s.reg rs &&& s.reg rt))

/-- OR8 (R233). -/
def execOr8 (rd rs rt : RegNum) (s : State) : Host.Outcome State Fault Refusal :=
  .next (s.setReg rd (s.reg rs ||| s.reg rt))

/-- OR16 (R234). -/
def execOr16 (rd rs rt : RegNum) (s : State) : Host.Outcome State Fault Refusal :=
  .next (s.setReg rd (s.reg rs ||| s.reg rt))

/-- XOR8 (R237). -/
def execXor8 (rd rs rt : RegNum) (s : State) : Host.Outcome State Fault Refusal :=
  .next (s.setReg rd (s.reg rs ^^^ s.reg rt))

/-- XOR16 (R238). -/
def execXor16 (rd rs rt : RegNum) (s : State) : Host.Outcome State Fault Refusal :=
  .next (s.setReg rd (s.reg rs ^^^ s.reg rt))

/-- NOT8 (R231). -/
def execNot8 (rd rs : RegNum) (s : State) : Host.Outcome State Fault Refusal :=
  .next (s.setReg rd (~~~s.reg rs))

/-- NOT16 (R232). -/
def execNot16 (rd rs : RegNum) (s : State) : Host.Outcome State Fault Refusal :=
  .next (s.setReg rd (~~~s.reg rs))

/-- MUL8: the four 16-bit products, unsigned (R229). -/
def execMul8 (rs rt : RegNum) (s : State) : Host.Outcome State Fault Refusal :=
  let a := s.reg rs
  let b := s.reg rt
  .next (s.setVHiLo (mulLane8 a b 3 ++ mulLane8 a b 2) (mulLane8 a b 1 ++ mulLane8 a b 0))

/-- MUL16: the two 32-bit products, unsigned (R230). -/
def execMul16 (rs rt : RegNum) (s : State) : Host.Outcome State Fault Refusal :=
  let a := s.reg rs
  let b := s.reg rt
  .next (s.setVHiLo (mulLane16 a b 1) (mulLane16 a b 0))

/-- DIV8: remainder and quotient of each lane; a lane with a zero divisor is free, the others are not (R227). -/
def execDiv8 (rs rt : RegNum) (s : State) : Host.Outcome State Fault Refusal :=
  let a := s.reg rs
  let b := s.reg rt
  let k := s.draws
  .next ((s.setVHiLo (divLane8 (k + 6) a b 3 ++ divLane8 (k + 4) a b 2)
    (divLane8 (k + 2) a b 1 ++ divLane8 k a b 0)).drew 8)

/-- DIV16: as DIV8, two lanes (R228). -/
def execDiv16 (rs rt : RegNum) (s : State) : Host.Outcome State Fault Refusal :=
  let a := s.reg rs
  let b := s.reg rt
  let k := s.draws
  .next ((s.setVHiLo (divLane16 (k + 2) a b 1) (divLane16 k a b 0)).drew 4)

/-- VMFHI with msel 01 (R239). -/
def execVmfhi8 (rd : RegNum) (s : State) : Host.Outcome State Fault Refusal :=
  .next (s.setReg rd s.vhi)

/-- VMFHI with msel 10 (R239). -/
def execVmfhi16 (rd : RegNum) (s : State) : Host.Outcome State Fault Refusal :=
  .next (s.setReg rd s.vhi)

/-- VMFLO with msel 01 (R240). -/
def execVmflo8 (rd : RegNum) (s : State) : Host.Outcome State Fault Refusal :=
  .next (s.setReg rd s.vlo)

/-- VMFLO with msel 10 (R240). -/
def execVmflo16 (rd : RegNum) (s : State) : Host.Outcome State Fault Refusal :=
  .next (s.setReg rd s.vlo)

end Sys2Proof.Machine
end

