-- ==== Sys2Proof/Machine/Dispatch.lean ====
section
/-! DEFINITION. The meaning of every instruction, one arm per constructor of `Instr` (30 R94). -/

namespace Sys2Proof.Machine

def exec (i : Instr) (s : State) : Host.Outcome State Fault Refusal :=
  match i with
  | .sll rd rt shamt => Sys2Proof.Machine.execSll rd rt shamt s
  | .srl rd rt shamt => Sys2Proof.Machine.execSrl rd rt shamt s
  | .sra rd rt shamt => Sys2Proof.Machine.execSra rd rt shamt s
  | .jr rs => Sys2Proof.Machine.execJr rs s
  | .jalr rs => Sys2Proof.Machine.execJalr rs s
  | .brk => Sys2Proof.Machine.execBrk s
  | .mfhi rd => Sys2Proof.Machine.execMfhi rd s
  | .mflo rd => Sys2Proof.Machine.execMflo rd s
  | .mult rs rt => Sys2Proof.Machine.execMult rs rt s
  | .div rs rt => Sys2Proof.Machine.execDiv rs rt s
  | .setie => Sys2Proof.Machine.execSetie s
  | .add rd rs rt => Sys2Proof.Machine.execAdd rd rs rt s
  | .addu rd rs rt => Sys2Proof.Machine.execAddu rd rs rt s
  | .sub rd rs rt => Sys2Proof.Machine.execSub rd rs rt s
  | .subu rd rs rt => Sys2Proof.Machine.execSubu rd rs rt s
  | .and rd rs rt => Sys2Proof.Machine.execAnd rd rs rt s
  | .or rd rs rt => Sys2Proof.Machine.execOr rd rs rt s
  | .xor rd rs rt => Sys2Proof.Machine.execXor rd rs rt s
  | .nor rd rs rt => Sys2Proof.Machine.execNor rd rs rt s
  | .slt rd rs rt => Sys2Proof.Machine.execSlt rd rs rt s
  | .sltu rd rs rt => Sys2Proof.Machine.execSltu rd rs rt s
  | .rb rd rs => Sys2Proof.Machine.execRb rd rs s
  | .rbo rd rs => Sys2Proof.Machine.execRbo rd rs s
  | .rr rd rt shamt => Sys2Proof.Machine.execRr rd rt shamt s
  | .bgez rs off => Sys2Proof.Machine.execBgez rs off s
  | .beq rs rt off => Sys2Proof.Machine.execBeq rs rt off s
  | .bne rs rt off => Sys2Proof.Machine.execBne rs rt off s
  | .blez rs off => Sys2Proof.Machine.execBlez rs off s
  | .bgtz rs off => Sys2Proof.Machine.execBgtz rs off s
  | .addi rt rs imm => Sys2Proof.Machine.execAddi rt rs imm s
  | .bltz rs off => Sys2Proof.Machine.execBltz rs off s
  | .slti rt rs imm => Sys2Proof.Machine.execSlti rt rs imm s
  | .sltiu rt rs imm => Sys2Proof.Machine.execSltiu rt rs imm s
  | .andi rt rs imm => Sys2Proof.Machine.execAndi rt rs imm s
  | .ori rt rs imm => Sys2Proof.Machine.execOri rt rs imm s
  | .xori rt rs imm => Sys2Proof.Machine.execXori rt rs imm s
  | .lui rt imm => Sys2Proof.Machine.execLui rt imm s
  | .bdt off => Sys2Proof.Machine.execBdt off s
  | .bdf off => Sys2Proof.Machine.execBdf off s
  | .input rt rs imm => Sys2Proof.Machine.execInput rt rs imm s
  | .output rt rs imm => Sys2Proof.Machine.execOutput rt rs imm s
  | .reti => Sys2Proof.Machine.execReti s
  | .lw rt rs imm => Sys2Proof.Machine.execLw rt rs imm s
  | .bsi rt rs imm => Sys2Proof.Machine.execBsi rt rs imm s
  | .bci rt rs imm => Sys2Proof.Machine.execBci rt rs imm s
  | .sw rt rs imm => Sys2Proof.Machine.execSw rt rs imm s
  | .j addr => Sys2Proof.Machine.execJ addr s
  | .jal addr => Sys2Proof.Machine.execJal addr s
  | .add8 rd rs rt => Sys2Proof.Machine.execAdd8 rd rs rt s
  | .add16 rd rs rt => Sys2Proof.Machine.execAdd16 rd rs rt s
  | .sub8 rd rs rt => Sys2Proof.Machine.execSub8 rd rs rt s
  | .sub16 rd rs rt => Sys2Proof.Machine.execSub16 rd rs rt s
  | .and8 rd rs rt => Sys2Proof.Machine.execAnd8 rd rs rt s
  | .and16 rd rs rt => Sys2Proof.Machine.execAnd16 rd rs rt s
  | .or8 rd rs rt => Sys2Proof.Machine.execOr8 rd rs rt s
  | .or16 rd rs rt => Sys2Proof.Machine.execOr16 rd rs rt s
  | .not8 rd rs => Sys2Proof.Machine.execNot8 rd rs s
  | .not16 rd rs => Sys2Proof.Machine.execNot16 rd rs s
  | .xor8 rd rs rt => Sys2Proof.Machine.execXor8 rd rs rt s
  | .xor16 rd rs rt => Sys2Proof.Machine.execXor16 rd rs rt s
  | .mul8 rs rt => Sys2Proof.Machine.execMul8 rs rt s
  | .mul16 rs rt => Sys2Proof.Machine.execMul16 rs rt s
  | .div8 rs rt => Sys2Proof.Machine.execDiv8 rs rt s
  | .div16 rs rt => Sys2Proof.Machine.execDiv16 rs rt s
  | .vmfhi8 rd => Sys2Proof.Machine.execVmfhi8 rd s
  | .vmfhi16 rd => Sys2Proof.Machine.execVmfhi16 rd s
  | .vmflo8 rd => Sys2Proof.Machine.execVmflo8 rd s
  | .vmflo16 rd => Sys2Proof.Machine.execVmflo16 rd s

end Sys2Proof.Machine
end

