-- ==== Sys2Proof/Machine/Step.lean ====
section
/-! DEFINITION. One step of the machine (00 R7): the host's move, the interrupt check, the fetch, the decoding and
the instruction. -/

namespace Sys2Proof.Machine

/-- Fetch, decode and execute one instruction (R7, R86). A word that decodes to nothing ends the run (R260, R222). -/
def fetchExecute (s : State) : Host.Outcome State Fault Refusal :=
  match decodeWord s.fetch.ir with
  | .ok i => exec i s.fetch
  | .error e => .next (s.fetch.endRun (runEndOf e))

/-- What a step does after the host's move, in a machine that runs on: the interrupt check decides (R262). A blocked
fetch changes nothing (R263; log entry 8). -/
def runStep (s : State) : Host.Outcome State Fault Refusal :=
  match s.boundaryAction with
  | .enter => .next s.interruptEntry
  | .fetch => fetchExecute s.settleAck
  | .blocked => .next s

/-- One step. The host's move at this boundary is made first; a reset pulse is the whole step (R300); a machine at the
end of its run has no step (R8, R261). -/
def step (s : State) : Host.Outcome State Fault Refusal :=
  if s.hostMove.reset then .next s.atBoundary.resetPulse
  else
    match s.atBoundary.ended with
    | some e => .fault (s.atBoundary.endFault e)
    | none => runStep s.atBoundary

/-- The state with an instruction of the opcode table placed where the next step fetches it: in instruction memory at
`pc`. The fetch also needs a machine that runs, an interrupt line that is low and a host that makes no move at this
boundary; these hold at reset already. It stands for the host's loading of a program (log entry 18). -/
def State.withFetchWord (s : State) (nbits w : Nat) : State :=
  { s with
    imem := s.imem.setWord (idx s.pc) (tableWord nbits w)
    ended := none
    intr := false
    hostMoves := [] }

end Sys2Proof.Machine
end

