-- ==== Sys2Proof/Safety.lean ====
section
/-! DEFINITION. The words that claims use: what a step leaves unchanged, what an instruction writes, the invariant
of the machine, and the spec's lists of encodings. -/

namespace Sys2Proof.Machine

/-! ### Frames -/

/-- Every general register reads as before. -/
def SameRegs (s t : State) : Prop := ∀ r, t.reg r = s.reg r

/-- Every general register but `rd` reads as before. -/
def SameRegsBut (rd : RegNum) (s t : State) : Prop := ∀ r, r ≠ rd → t.reg r = s.reg r

/-- `x[rd] <- v` and no other register is written; register 0 still reads 0 (R21). -/
def WroteReg (rd : RegNum) (v : Word) (s t : State) : Prop :=
  t.reg rd = (if rd = 0 then 0 else v) ∧ SameRegsBut rd s t

/-- The scalar HI and LO are as before. -/
def SameHiLo (s t : State) : Prop := t.hi = s.hi ∧ t.lo = s.lo

/-- The vector HI and LO are as before. -/
def SameVHiLo (s t : State) : Prop := t.vhi = s.vhi ∧ t.vlo = s.vlo

/-- Every byte of instruction memory is as before. -/
def SameImem (s t : State) : Prop := ∀ a, t.imem.byte? a = s.imem.byte? a

/-- Every byte of data memory is as before. -/
def SameDmem (s t : State) : Prop := ∀ a, t.dmem.byte? a = s.dmem.byte? a

/-- Every byte of I/O memory is as before. -/
def SameIomem (s t : State) : Prop := ∀ a, t.iomem.byte? a = s.iomem.byte? a

/-- Every byte of the three memories is as before. -/
def SameMemories (s t : State) : Prop := SameImem s t ∧ SameDmem s t ∧ SameIomem s t

/-- The instruction register, the end of run, the acknowledge latch, the host's part of the state and the parameters
of the machine are as before. -/
def SameControl (s t : State) : Prop :=
  t.ir = s.ir ∧ t.ended = s.ended ∧ t.intAck = s.intAck ∧ t.intr = s.intr ∧ t.hostMoves = s.hostMoves ∧
  t.variant = s.variant

/-- Everything but the general registers, the flags and `pc` is as before. -/
def SameRest (s t : State) : Prop := SameHiLo s t ∧ SameVHiLo s t ∧ SameMemories s t ∧ SameControl s t

/-- The five status flags may have changed; IE has not. -/
def SameIe (s t : State) : Prop := t.flags.ie = s.flags.ie

/-! ### Words in memory -/

/-- The four bytes from index `i` on hold the word `w`, big-endian (R53). -/
def HoldsWord (m : Memory) (i : Nat) (w : Word) : Prop := ∀ j : Fin 4, m.byte? (i + j.val) = some (wordByte w j)

/-- `w` is a value that a read of the word at index `i` may give: each byte that has a value gives it, and a byte
without one gives any (R46, R56). -/
def ReadsWord (m : Memory) (i : Nat) (w : Word) : Prop :=
  ∀ (j : Fin 4) (b : Byte), m.byte? (i + j.val) = some b → wordByte w j = b

/-- Every byte outside the four from index `i` on is in `m'` as in `m`. -/
def SameBytesOutside (i : Nat) (m m' : Memory) : Prop := ∀ a, a < i ∨ i + 3 < a → m'.byte? a = m.byte? a

/-- The byte that a list of host writes, or an image, gives an index: the last one named, if one is (D16, D17). -/
def lastNamed (ws : List Host.Cell) (a : Nat) : Option Byte := (ws.reverse.find? fun c => c.1 == a).map (·.2)

/-! ### Effects -/

/-- The status flags of an addition (R29): the carry out of bit 31, signed overflow, and the sign and zero of the
wrapped sum. DBZ is left open. -/
def AddFlags (a b : Word) (f : Flags) : Prop :=
  (f.c = true ↔ 2 ^ 32 ≤ a.toNat + b.toNat) ∧
  (f.v = true ↔ a.toInt + b.toInt < -2 ^ 31 ∨ 2 ^ 31 ≤ a.toInt + b.toInt) ∧
  (f.n = true ↔ (a + b).toInt < 0) ∧ (f.z = true ↔ a + b = 0)

/-- The status flags of ADDU (R30): V is the carry; N and DBZ are left open. -/
def AdduFlags (a b : Word) (f : Flags) : Prop :=
  (f.c = true ↔ 2 ^ 32 ≤ a.toNat + b.toNat) ∧ f.v = f.c ∧ (f.z = true ↔ a + b = 0)

/-- The status flags of a subtraction (R31): the borrow, signed overflow, and the sign and zero of the wrapped
difference. DBZ is left open. -/
def SubFlags (a b : Word) (f : Flags) : Prop :=
  (f.c = true ↔ a.toNat < b.toNat) ∧
  (f.v = true ↔ a.toInt - b.toInt < -2 ^ 31 ∨ 2 ^ 31 ≤ a.toInt - b.toInt) ∧
  (f.n = true ↔ (a - b).toInt < 0) ∧ (f.z = true ↔ a = b)

/-- The status flags of SUBU (R32): V is the borrow; N and DBZ are left open. -/
def SubuFlags (a b : Word) (f : Flags) : Prop :=
  (f.c = true ↔ a.toNat < b.toNat) ∧ f.v = f.c ∧ (f.z = true ↔ a = b)

/-- The sign and zero of a value (R33); C, V and DBZ are left open. -/
def LogicFlags (y : Word) (f : Flags) : Prop := (f.n = true ↔ y.toInt < 0) ∧ (f.z = true ↔ y = 0)

/-- An instruction's effect that is one register and the status flags: `x[rd] <- y`, flags as `F` says, IE, `pc` and
everything else as before. -/
def AluEffect (rd : RegNum) (y : Word) (F : Flags → Prop) (s t : State) : Prop :=
  WroteReg rd y s t ∧ F t.flags ∧ SameIe s t ∧ t.pc = s.pc ∧ SameRest s t

/-- An instruction's effect that is one register alone: `x[rd] <- y`, all six flags, `pc` and everything else as
before. -/
def MoveEffect (rd : RegNum) (y : Word) (s t : State) : Prop :=
  WroteReg rd y s t ∧ t.flags = s.flags ∧ t.pc = s.pc ∧ SameRest s t

/-- A branch's effect: `pc <- pc + 4*off` if it is taken (R161), the status flags as `F` says, IE and everything else
as before. -/
def BranchEffect (taken : Prop) (off : Int) (F : Flags → Prop) (s t : State) : Prop :=
  (taken → t.pc = s.pc + BitVec.ofInt 32 (4 * off)) ∧ (¬ taken → t.pc = s.pc) ∧ F t.flags ∧ SameIe s t ∧
  SameRegs s t ∧ SameRest s t

/-- Everything but the two HI/LO pairs is as before (the multiplications and divisions write no register; the flags
are said apart). -/
def SameButHiLos (s t : State) : Prop := SameRegs s t ∧ t.pc = s.pc ∧ SameMemories s t ∧ SameControl s t

/-- An effect on the vector pair alone. -/
def SameButVHiLo (s t : State) : Prop := SameButHiLos s t ∧ SameHiLo s t ∧ t.flags = s.flags

/-- Halfword `i` of the 64 bits `{vhi, vlo}`, 0 the lowest (R26). -/
def vectorHalf (t : State) (i : Nat) : Half := (t.vhi ++ t.vlo).extractLsb' (16 * i) 16

/-! ### Sets of words that decode to one instruction -/

/-- Every word with opcode 0x00 and this function code decodes to this instruction, whatever its other bits
(R81, R88, R90). -/
def DecodesRType (funct : BitVec 6) (f : Word → Instr) : Prop :=
  ∀ w, opField w = 0x00 → functField w = funct → decodeWord w = .ok (f w)

/-- Every word with this major opcode decodes to this instruction (R82, R83, R87, R90). -/
def DecodesMajor (op : BitVec 6) (f : Word → Instr) : Prop := ∀ w, opField w = op → decodeWord w = .ok (f w)

/-- Every word with opcode 0x1F, this function select and this mode select decodes to this instruction
(R84, R89, R90). -/
def DecodesVType (vfs : BitVec 5) (msel : BitVec 2) (f : Word → Instr) : Prop :=
  ∀ w, opField w = 0x1F → vfsField w = vfs → mselField w = msel → decodeWord w = .ok (f w)

/-- The major opcodes of R87, the two that lead to a second table left out. -/
def majorOpcodes : List (BitVec 6) :=
  [0x01, 0x02, 0x03, 0x04, 0x05, 0x06, 0x07, 0x08, 0x09, 0x0A, 0x0B, 0x0C, 0x0D, 0x0E, 0x0F, 0x10, 0x11, 0x1C, 0x1D,
    0x1E, 0x23, 0x24, 0x25, 0x2B]

/-- The R-Type function codes of R88. -/
def rTypeFuncts : List (BitVec 6) :=
  [0x00, 0x02, 0x03, 0x08, 0x09, 0x0D, 0x10, 0x12, 0x18, 0x1A, 0x1F, 0x20, 0x21, 0x22, 0x23, 0x24, 0x25, 0x26, 0x27,
    0x2A, 0x2B, 0x2C, 0x2D, 0x34]

/-- The V-Type function selects of R89. -/
def vTypeFuncts : List (BitVec 5) := [0x02, 0x03, 0x04, 0x05, 0x06, 0x07, 0x08, 0x09, 0x0A, 0x0B]

/-- The bits 25:21, 20:16, 15:11, 10:6, 5:2 and 15:0 of a word. -/
def rsMask : Word := 0x03E00000
def rtMask : Word := 0x001F0000
def rdMask : Word := 0x0000F800
def shamtMask : Word := 0x000007C0
def resMask : Word := 0x0000003C
def immMask : Word := 0x0000FFFF

/-- The bits of a word that its instruction ignores (R90). -/
def ignoredBits (w : Word) : Word :=
  if opField w = 0x00 then
    (if functField w ∈ [0x00, 0x02, 0x03, 0x34] then 0 else shamtMask)
      ||| (if functField w ∈ [0x00, 0x02, 0x03, 0x34, 0x10, 0x12, 0x0D, 0x1F] then rsMask else 0)
      ||| (if functField w ∈ [0x08, 0x09, 0x10, 0x12, 0x2C, 0x2D, 0x0D, 0x1F] then rtMask else 0)
      ||| (if functField w ∈ [0x1A, 0x18, 0x08, 0x09, 0x0D, 0x1F] then rdMask else 0)
  else if opField w = 0x1F then
    resMask
      ||| (if vfsField w ∈ [0x0A, 0x0B] then rsMask else 0)
      ||| (if vfsField w ∈ [0x06, 0x0A, 0x0B] then rtMask else 0)
      ||| (if vfsField w ∈ [0x08, 0x09] then rdMask else 0)
  else
    (if opField w ∈ [0x0F, 0x10, 0x11, 0x1E] then rsMask else 0)
      ||| (if opField w ∈ [0x06, 0x07, 0x09, 0x01, 0x10, 0x11, 0x1E] then rtMask else 0)
      ||| (if opField w = 0x1E then immMask else 0)

/-! ### The invariant and the runs -/

/-- What every step keeps: register 0 holds 0 (R21), and each memory is in its canonical form, listing only bytes that
can be reached (R51, R60). -/
def State.Inv (s : State) : Prop := s.regs[0] = 0 ∧ s.imem.wf ∧ s.dmem.wf ∧ s.iomem.wf

/-- The machine runs on at this boundary: it has not come to an end of run and the host does not pulse reset. -/
def State.Runs (s : State) : Prop := s.ended = none ∧ s.hostMove.reset = false

/-- The host lets the machine fetch at this boundary: the line is low, or the request has been acknowledged (R262). -/
def State.FetchAllowed (s : State) : Prop := s.hostMove.intr = false ∨ s.intAck = true

/-- The general register an instruction writes, if it writes one (R23 and the instruction rules of 40 to 44). -/
def destReg? : Instr → Option RegNum
  | .sll rd _ _ | .srl rd _ _ | .sra rd _ _ | .rr rd _ _ | .rb rd _ | .rbo rd _ => some rd
  | .add rd _ _ | .addu rd _ _ | .sub rd _ _ | .subu rd _ _ => some rd
  | .and rd _ _ | .or rd _ _ | .xor rd _ _ | .nor rd _ _ | .slt rd _ _ | .sltu rd _ _ => some rd
  | .mfhi rd | .mflo rd | .vmfhi8 rd | .vmfhi16 rd | .vmflo8 rd | .vmflo16 rd => some rd
  | .addi rt _ _ | .slti rt _ _ | .sltiu rt _ _ | .andi rt _ _ | .ori rt _ _ | .xori rt _ _ | .lui rt _ => some rt
  | .lw rt _ _ | .input rt _ _ | .bsi rt _ _ | .bci rt _ _ => some rt
  | .add8 rd _ _ | .add16 rd _ _ | .sub8 rd _ _ | .sub16 rd _ _ | .and8 rd _ _ | .and16 rd _ _ => some rd
  | .or8 rd _ _ | .or16 rd _ _ | .xor8 rd _ _ | .xor16 rd _ _ | .not8 rd _ | .not16 rd _ => some rd
  | .jal _ | .jalr _ => some raReg
  | .reti => some spReg
  | .jr _ | .brk | .mult _ _ | .div _ _ | .setie => none
  | .bgez _ _ | .beq _ _ _ | .bne _ _ _ | .blez _ _ | .bgtz _ _ | .bltz _ _ | .bdt _ | .bdf _ => none
  | .output _ _ _ | .sw _ _ _ | .j _ => none
  | .mul8 _ _ | .mul16 _ _ | .div8 _ _ | .div16 _ _ => none

/-- The instructions that leave all six flags unchanged (R38). -/
def leavesFlags : Instr → Bool
  | .jr _ | .jalr _ | .mfhi _ | .mflo _ | .rb _ _ | .rbo _ _ | .rr _ _ _ | .bsi _ _ _ | .bci _ _ _ => true
  | .bdt _ | .bdf _ | .j _ | .jal _ | .brk => true
  | .add8 _ _ _ | .add16 _ _ _ | .sub8 _ _ _ | .sub16 _ _ _ | .and8 _ _ _ | .and16 _ _ _ => true
  | .or8 _ _ _ | .or16 _ _ _ | .not8 _ _ | .not16 _ _ | .xor8 _ _ _ | .xor16 _ _ _ => true
  | .mul8 _ _ | .mul16 _ _ | .div8 _ _ | .div16 _ _ => true
  | .vmfhi8 _ | .vmfhi16 _ | .vmflo8 _ | .vmflo16 _ => true
  | .sll _ _ _ | .srl _ _ _ | .sra _ _ _ | .mult _ _ | .div _ _ | .setie => false
  | .add _ _ _ | .addu _ _ _ | .sub _ _ _ | .subu _ _ _ | .and _ _ _ | .or _ _ _ | .xor _ _ _ | .nor _ _ _ => false
  | .slt _ _ _ | .sltu _ _ _ => false
  | .bgez _ _ | .beq _ _ _ | .bne _ _ _ | .blez _ _ | .bgtz _ _ | .bltz _ _ => false
  | .addi _ _ _ | .slti _ _ _ | .sltiu _ _ _ | .andi _ _ _ | .ori _ _ _ | .xori _ _ _ | .lui _ _ => false
  | .input _ _ _ | .output _ _ _ | .reti | .lw _ _ _ | .sw _ _ _ => false

end Sys2Proof.Machine
end

