-- ==== Sys2Proof/Certificates/Slice0/Obligations.lean ====
section
/-! DEFINITION. The statements for the provers, in the order of OBLIGATIONS.json: encodings, reset and the ends of a
run, the interrupt, what holds of the whole machine, and the result of every instruction with its frame. -/

open Sys2Proof Sys2Proof.Machine

/-- Decoding the bytes of an encoded well-formed instruction gives the instruction back, and leaves the bytes after
it.
Every operand at every value its field holds; the four bytes are big-endian (R53, R80). -/
def Obligations.DecodeUndoesEncode : Prop :=
  ∀ (i : Instr) (rest : List Byte), i.wellFormed = true → decode (encodeBytes i ++ rest) = .ok (i, rest)

/-- Encoding the instruction that a word decodes to gives the word with its ignored fields set to 0.
The other direction of `DecodeUndoesEncode`: a word is determined by its instruction up to the ignored bits. -/
def Obligations.EncodeOfDecodedClearsIgnoredFields : Prop :=
  ∀ (w : Word) (i : Instr), decodeWord w = .ok i → encode i = w &&& ~~~ignoredBits w

/-- Changing any bits of the fields an instruction ignores gives the same instruction.
R90. `ignoredBits` is the list of R90: what decoding gives is all that execution sees of a word, so the same
instruction behaves the same. -/
def Obligations.IgnoredFieldsChangeNothing : Prop :=
  ∀ w m : Word, decodeWord (w ^^^ (m &&& ignoredBits w)) = decodeWord w

/-- A word is an illegal opcode exactly where the three tables do not list it, and hangs exactly at V-Type mode 00 or
11.
The three causes of R260 and the two mode values of R222, over all 2^32 words. -/
def Obligations.DecoderRefusesExactlyTheUnlistedWords : Prop :=
  ∀ w : Word,
    (decodeWord w = .error .illegalOp ↔
      (opField w = 0x00 ∧ functField w ∉ rTypeFuncts) ∨
      (opField w = 0x1F ∧ (mselField w = 0b01 ∨ mselField w = 0b10) ∧ vfsField w ∉ vTypeFuncts) ∨
      (opField w ≠ 0x00 ∧ opField w ≠ 0x1F ∧ opField w ∉ majorOpcodes)) ∧
    (decodeWord w = .error .vtypeMode ↔ opField w = 0x1F ∧ (mselField w = 0b00 ∨ mselField w = 0b11)) ∧
    decodeWord w ≠ .error .truncated

/-- Whatever decodes is a well-formed instruction made of the first four bytes.
The decoder reads one word and gives back the bytes after it. -/
def Obligations.DecodedInstructionIsWellFormed : Prop :=
  ∀ (bytes rest : List Byte) (i : Instr), decode bytes = .ok (i, rest) →
    i.wellFormed = true ∧ ∃ w : Word, bytes = bytesOfWord w ++ rest ∧ decodeWord w = .ok i

/-- Words that the spec prints decode to the instructions they stand for.
The words stand in R112, R117, R124, R135, R136, R162, R166, R170, R173, R177, R201, R212 and R227, in this
order; what they decode to follows from the formats R81 to R85, the tables R87 to R90 and the operand order R92. -/
def Obligations.SpecWordsDecodeAsPrinted : Prop :=
  decodeTableWord 32 0x00221820 = some (.add 3 1 2) ∧
  decodeTableWord 32 0x00005010 = some (.mfhi 10) ∧
  decodeTableWord 32 0x000218B4 = some (.rr 3 2 2) ∧
  decodeTableWord 32 0x0000000D = some .brk ∧
  decodeTableWord 32 0x0000001F = some .setie ∧
  decodeTableWord 32 0x20220005 = some (.addi 2 1 5) ∧
  decodeTableWord 32 0x40000003 = some (.bdt 3) ∧
  decodeTableWord 32 0x15A0FFFA = some (.bne 13 0 (-6)) ∧
  decodeTableWord 32 0x8DE20000 = some (.lw 2 15 0) ∧
  decodeTableWord 32 0xADE20000 = some (.sw 2 15 0) ∧
  decodeTableWord 32 0x0C100015 = some (.jal 0x100015) ∧
  decodeTableWord 32 0x78000000 = some .reti ∧
  decodeTableWord 32 0x7DA80241 = some (.div8 13 8)

/-- The state after reset: pc 0, register 0 zero, $sp 0x3FC, HI/LO pairs, flags, acknowledge latch and IR zero, no
end of run.
The values of R45. The memories list nothing (log entry 18: the images are loaded from outside) the line is low
with no host move planned (log entry 5), and the variant is the spec's default (log entries 10 and 11): these
are the model's choices. `StartHoldsItsParameters` says what stands there instead when parameters are given. -/
def Obligations.ResetStateHoldsTheResetValues : Prop :=
  State.reset.pc = 0 ∧ State.reset.reg 0 = 0 ∧ State.reset.reg 29 = 0x000003FC ∧
  State.reset.hi = 0 ∧ State.reset.lo = 0 ∧ State.reset.vhi = 0 ∧ State.reset.vlo = 0 ∧
  State.reset.flags = ⟨false, false, false, false, false, false⟩ ∧ State.reset.intAck = false ∧ State.reset.ir = 0 ∧
  State.reset.ended = none ∧ State.reset.intr = false ∧ State.reset.hostMoves = [] ∧
  State.reset.variant.sraFill = .rtl ∧ State.reset.variant.jalrJumps = false ∧
  (∀ a, State.reset.imem.byte? a = none ∧ State.reset.dmem.byte? a = none ∧ State.reset.iomem.byte? a = none)

/-- The state after reset, with any images and parameters, meets the invariant that every step keeps.
The invariant is `State.Inv`: register 0 holds 0 and the three memories are in canonical form. -/
def Obligations.ResetMeetsTheInvariant : Prop :=
  State.reset.Inv ∧ ∀ p : Params, (State.start p).Inv

/-- Every step keeps register 0 at 0, each memory in canonical form with only reachable bytes, and the parameters of
the machine.
For every state, not only those that a run reaches. -/
def Obligations.StepKeepsTheInvariant : Prop :=
  ∀ s t : State, s.Inv → step s = .next t → t.Inv ∧ t.variant = s.variant

/-- A reset pulse at a boundary puts the reset values in place and leaves the other registers and the memories as
they are.
R300 at an instruction boundary, from any state, an end of run among them. That a pulse is taken only at a
boundary is the model's choice (log entry 7). -/
def Obligations.ResetPulseRestartsTheMachine : Prop :=
  ∀ s : State, s.hostMove.reset = true → ∃ t, step s = .next t ∧
    t.pc = 0 ∧ t.reg 0 = 0 ∧ t.reg 29 = 0x000003FC ∧ (∀ r, r ≠ 0 → r ≠ 29 → t.reg r = s.reg r) ∧
    t.hi = 0 ∧ t.lo = 0 ∧ t.vhi = 0 ∧ t.vlo = 0 ∧ t.flags = ⟨false, false, false, false, false, false⟩ ∧
    t.intAck = false ∧ t.ir = 0 ∧ t.ended = none ∧ SameImem s t ∧ SameDmem s t ∧ SameIomem s.atBoundary t ∧
    t.intr = s.hostMove.intr ∧ t.hostMoves = s.hostMoves.tail ∧ t.variant = s.variant

/-- What the host does at a boundary changes the interrupt line and the I/O bytes it names, and nothing else.
`lastNamed` is the last value named for an index. That the host's moves stand in a list in State, and that a
write to an index that is no byte does nothing, is the model's form (log entries 5 and 6). -/
def Obligations.HostMoveChangesOnlyItsOwn : Prop :=
  ∀ s : State,
    SameRegs s s.atBoundary ∧ s.atBoundary.pc = s.pc ∧ s.atBoundary.flags = s.flags ∧ SameHiLo s s.atBoundary ∧
    SameVHiLo s s.atBoundary ∧ SameImem s s.atBoundary ∧ SameDmem s s.atBoundary ∧ s.atBoundary.ir = s.ir ∧
    s.atBoundary.ended = s.ended ∧ s.atBoundary.intAck = s.intAck ∧ s.atBoundary.intr = s.hostMove.intr ∧
    s.atBoundary.hostMoves = s.hostMoves.tail ∧ s.atBoundary.variant = s.variant ∧
    (∀ a b, a < memBytes → lastNamed s.hostMove.ioWrites a = some b → s.atBoundary.iomem.byte? a = some b) ∧
    (∀ a, lastNamed s.hostMove.ioWrites a = none → s.atBoundary.iomem.byte? a = s.iomem.byte? a) ∧
    (∀ a, memBytes ≤ a → s.atBoundary.iomem.byte? a = s.iomem.byte? a)

/-- Where the word at pc decodes to an instruction and the fetch is allowed, a step is that instruction's meaning.
With all that the step does around `exec`: the host's move, clearing the acknowledge latch (R264), the
instruction register, and `pc` advanced by 4 (R80). -/
def Obligations.StepRunsTheDecodedInstruction : Prop :=
  ∀ (s : State) (w : Word) (i : Instr), s.Runs → s.FetchAllowed → HoldsWord s.imem (idx s.pc) w →
    decodeWord w = .ok i →
    ∃ u, step s = exec i u ∧ u.ir = w ∧ u.pc = s.pc + 4 ∧ u.intAck = (s.intAck && s.hostMove.intr) ∧
      SameRegs s u ∧ u.flags = s.flags ∧ SameHiLo s u ∧ SameVHiLo s u ∧ SameImem s u ∧ SameDmem s u ∧
      SameIomem s.atBoundary u ∧ u.ended = none ∧ u.intr = s.hostMove.intr ∧ u.hostMoves = s.hostMoves.tail ∧
      u.variant = s.variant

/-- A fetched word that the tables do not list ends the run: pc advanced, nothing else changed, and no further step.
R260, its three causes among the hypotheses. That the end is a next state whose `ended` field names it, and that
the next step is a fault carrying the word and `pc`, is the model's choice (log entry 9). The clearing of
int_ack belongs to the interrupt check before the fetch (R264). -/
def Obligations.IllegalWordEndsTheRun : Prop :=
  ∀ (s : State) (w : Word), s.Runs → s.FetchAllowed → HoldsWord s.imem (idx s.pc) w →
    ((opField w = 0x00 ∧ functField w ∉ rTypeFuncts) ∨
      (opField w = 0x1F ∧ (mselField w = 0b01 ∨ mselField w = 0b10) ∧ vfsField w ∉ vTypeFuncts) ∨
      (opField w ≠ 0x00 ∧ opField w ≠ 0x1F ∧ opField w ∉ majorOpcodes)) →
    ∃ t, step s = .next t ∧ t.ended = some .illegalOp ∧ t.pc = s.pc + 4 ∧ t.ir = w ∧ SameRegs s t ∧
      t.flags = s.flags ∧ SameHiLo s t ∧ SameVHiLo s t ∧ SameMemories s.atBoundary t ∧
      t.intAck = (s.intAck && s.hostMove.intr) ∧
      (t.hostMove.reset = false → step t = .fault (.illegalOp w (s.pc + 4)))

/-- A V-Type word with mode select 00 or 11 hangs the machine after the fetch; only reset leaves the condition.
R222. That the hang is a next state whose `ended` field names it, and that the next step is a fault of that
name, is the model's choice (log entry 9). The clearing of int_ack belongs to the interrupt check before the
fetch (R264). -/
def Obligations.VtypeModeHangsTheMachine : Prop :=
  ∀ (s : State) (w : Word), s.Runs → s.FetchAllowed → HoldsWord s.imem (idx s.pc) w →
    opField w = 0x1F → (mselField w = 0b00 ∨ mselField w = 0b11) →
    ∃ t, step s = .next t ∧ t.ended = some .stuckVtypeMode ∧ t.pc = s.pc + 4 ∧ t.ir = w ∧ SameRegs s t ∧
      t.flags = s.flags ∧ SameHiLo s t ∧ SameVHiLo s t ∧ SameMemories s.atBoundary t ∧
      t.intAck = (s.intAck && s.hostMove.intr) ∧
      (t.hostMove.reset = false → step t = .fault (.stuckVtypeMode (s.pc + 4))) ∧
      (t.hostMove.reset = true → ∃ u, step t = .next u ∧ u.ended = none)

/-- A running machine always has a step, the run ends exactly at BREAK, an illegal word or a V-Type hang, and then
there is no step.
R8. `s.FetchAllowed` is where the step fetches; `t.ir` is then the fetched word. Where it does not fetch and IE
is 0, the fetch is blocked: not an end. That a blocked boundary answers a next state is the model's choice (log
entry 8; R263 says that the CPU has no enabled step), and so is the end as an `ended` field followed by a fault
(log entry 9). -/
def Obligations.RunEndsInExactlyTheThreeCases : Prop :=
  ∀ s : State, s.hostMove.reset = false →
    (s.ended ≠ none → ∃ f, step s = .fault f) ∧
    (s.ended = none → ∃ t, step s = .next t ∧
      (t.ended ≠ none ↔ s.FetchAllowed ∧ (decodeWord t.ir = .ok .brk ∨ ∃ e, decodeWord t.ir = .error e)) ∧
      (t.ended ≠ none → t.pc = s.pc + 4 ∧ SameRegs s t ∧ t.flags = s.flags ∧ SameHiLo s t ∧ SameVHiLo s t ∧
        SameMemories s.atBoundary t) ∧
      (¬ s.FetchAllowed → s.flags.ie = false → t.pc = s.pc ∧ t.ended = none))

/-- Interrupt entry pushes pc and the flags word below $sp, jumps through the vector at 0x3FC, clears IE and sets
int_ack.
R265. The vector is read from the memory after the pushes. The flags word is spelled out with the layout of R27. -/
def Obligations.InterruptEntryPushesFrameAndVectors : Prop :=
  ∀ s : State, s.Runs → s.intAck = false → s.hostMove.intr = true → s.flags.ie = true →
    ∃ t, step s = .next t ∧
      HoldsWord t.dmem (idx (s.reg 29 - 4)) s.pc ∧
      HoldsWord t.dmem (idx (s.reg 29 - 8))
        (0#26 ++ BitVec.ofBool s.flags.dbz ++ BitVec.ofBool s.flags.ie ++ BitVec.ofBool s.flags.c ++
          BitVec.ofBool s.flags.v ++ BitVec.ofBool s.flags.n ++ BitVec.ofBool s.flags.z) ∧
      (∀ a, (a < idx (s.reg 29 - 4) ∨ idx (s.reg 29 - 4) + 3 < a) →
        (a < idx (s.reg 29 - 8) ∨ idx (s.reg 29 - 8) + 3 < a) → t.dmem.byte? a = s.dmem.byte? a) ∧
      ReadsWord t.dmem 0x3FC t.pc ∧ WroteReg 29 (s.reg 29 - 8) s t ∧
      t.flags = { s.flags with ie := false } ∧ t.intAck = true ∧ SameHiLo s t ∧ SameVHiLo s t ∧ SameImem s t ∧
      SameIomem s.atBoundary t ∧ t.ir = s.ir ∧ t.ended = none ∧ t.variant = s.variant

/-- While the line is high with IE and int_ack 0, any number of steps changes no state of the CPU, however long the
host holds it.
R263, over any number of boundaries, those after the last planned move among them, at which the line keeps its
level (log entry 5). That a blocked boundary answers a next state is the model's choice (log entry 8). -/
def Obligations.MaskedRequestBlocksTheFetch : Prop :=
  ∀ (n : Nat) (s : State), s.ended = none → s.flags.ie = false → s.intAck = false →
    (∀ m ∈ s.hostMoves.take n, m.intr = true ∧ m.reset = false) →
    (s.hostMoves = [] → s.intr = true ∨ n = 0) →
    ∃ t, Sys2Proof.core.run n s = .next t ∧ SameRegs s t ∧ t.pc = s.pc ∧ t.flags = s.flags ∧ SameHiLo s t ∧
      SameVHiLo s t ∧ SameImem s t ∧ SameDmem s t ∧
      (∀ a, (∀ m ∈ s.hostMoves.take n, lastNamed m.ioWrites a = none) → t.iomem.byte? a = s.iomem.byte? a) ∧
      t.ir = s.ir ∧ t.intAck = false ∧ t.ended = none ∧ (n ≠ 0 → t.intr = true) ∧ t.variant = s.variant ∧
      t.hostMoves = s.hostMoves.drop n

/-- int_ack is set by interrupt entry, cleared when a step finds it set and the line low, cleared by reset, and else
kept.
R264, over every step. While the latch is set the step fetches: no interrupt is accepted, whatever IE is. -/
def Obligations.AcknowledgeLatchFollowsEntryAndLine : Prop :=
  ∀ s : State,
    (∀ t, step s = .next t → t.intAck =
      (if s.hostMove.reset then false
      else if s.intAck then s.hostMove.intr else (s.hostMove.intr && s.flags.ie))) ∧
    (s.Runs → s.intAck = true → step s = fetchExecute s.atBoundary.settleAck)

/-- RETI with $sp and the frame as entry left them resumes at the interrupted pc with the flags and $sp of before the
entry.
R266: the handler may do anything between, if it leaves `$sp` and the eight bytes of the frame as it found them. -/
def Obligations.RetiUndoesInterruptEntry : Prop :=
  ∀ s t u : State, s.Runs → s.intAck = false → s.hostMove.intr = true → s.flags.ie = true → step s = .next t →
    u.reg 29 = t.reg 29 →
    (∀ a, (idx (s.reg 29 - 4) ≤ a ∧ a ≤ idx (s.reg 29 - 4) + 3) ∨ (idx (s.reg 29 - 8) ≤ a ∧
      a ≤ idx (s.reg 29 - 8) + 3) →
      u.dmem.byte? a = t.dmem.byte? a) →
    ∃ v, exec .reti u = .next v ∧ v.pc = s.pc ∧ v.flags = s.flags ∧ v.reg 29 = s.reg 29 ∧ v.intAck = u.intAck

/-- Every instruction answers a next state from every state and operands; only BREAK ends the run.
R269: no condition raises anything. The clause on `ended` says that completing is not an end of run, BREAK apart
(R8, R135); that BREAK answers a next state whose `ended` field names the end is the model's choice (log entry
9). -/
def Obligations.EveryInstructionCompletes : Prop :=
  ∀ (i : Instr) (s : State), ∃ t, exec i s = .next t ∧ t.ended = (if i = .brk then some .brk else s.ended)

/-- No step changes a byte of instruction memory.
R67: no instruction, no interrupt entry, no reset pulse and no host move that this model has changes it; that
the host has no move which reloads it (A_IMAGES_LOADED) is the model's choice (log entry 18). -/
def Obligations.InstructionMemoryIsNeverWritten : Prop :=
  (∀ (s t : State), step s = .next t → SameImem s t) ∧
  (∀ (i : Instr) (s t : State), exec i s = .next t → SameImem s t)

/-- Only SW changes data memory and only OUTPUT changes I/O memory, among the instructions.
The table of R50, the instructions' part of it (interrupt entry is `InterruptEntryPushesFrameAndVectors`). -/
def Obligations.OnlySwAndOutputWriteMemory : Prop :=
  ∀ (i : Instr) (s t : State), exec i s = .next t →
    ((∀ rt rs imm, i ≠ .sw rt rs imm) → SameDmem s t) ∧ ((∀ rt rs imm, i ≠ .output rt rs imm) → SameIomem s t)

/-- Only MULT and DIV change hi and lo; only MUL8, MUL16, DIV8 and DIV16 change vhi and vlo.
R25 and R26, the writing side. -/
def Obligations.OnlyMultiplyAndDivideWriteTheHiLoPairs : Prop :=
  ∀ (i : Instr) (s t : State), exec i s = .next t →
    ((∀ rs rt, i ≠ .mult rs rt ∧ i ≠ .div rs rt) → SameHiLo s t) ∧
    ((∀ rs rt, i ≠ .mul8 rs rt ∧ i ≠ .mul16 rs rt ∧ i ≠ .div8 rs rt ∧ i ≠ .div16 rs rt) → SameVHiLo s t)

/-- The instructions listed as leaving the flags leave all six; IE changes only by SETIE and RETI.
R38 (`leavesFlags` is its list) and R28 for IE. -/
def Obligations.FlagWritersAreAsListed : Prop :=
  ∀ (i : Instr) (s t : State), exec i s = .next t →
    (leavesFlags i = true → t.flags = s.flags) ∧ (i ≠ .setie → i ≠ .reti → t.flags.ie = s.flags.ie)

/-- An instruction changes no general register but its destination, and register 0 reads 0 after it.
`destReg?` names the destination: rd or rt, register 31 for JAL and JALR, register 29 for RETI, none for the
others. -/
def Obligations.OnlyTheDestinationRegisterChanges : Prop :=
  ∀ (i : Instr) (s t : State), exec i s = .next t →
    t.reg 0 = 0 ∧ ∀ r, destReg? i ≠ some r → t.reg r = s.reg r

/-- No instruction reads C or V, and only BDT, BDF and SETIE read any flag: two runs that differ in the flags alone
stay so.
R39. A flag that differs before reaches nothing after but itself, where it is kept: the flags after are those
given before (`leavesFlags`), the popped ones (RETI), those given before with IE inverted (SETIE), or the status
flags written with the IE given before. The two runs draw equal free values, since they start with equal
`draws`: that is the model's choice (log entry 2; R11 lets two runs draw apart). -/
def Obligations.CarryAndOverflowAreNotRead : Prop :=
  ∀ (i : Instr) (s t : State) (f : Flags), exec i s = .next t →
    ((f.dbz = s.flags.dbz ∧ f.ie = s.flags.ie) ∨ ((∀ off, i ≠ .bdt off ∧ i ≠ .bdf off) ∧ i ≠ .setie) →
      exec i { s with flags := f } = .next { t with
        flags :=
          if leavesFlags i then f
          else if i = .reti then t.flags
          else if i = .setie then { f with ie := !f.ie }
          else { t.flags with ie := f.ie } })

/-- A load at an address with the same low 12 bits returns the word that SW or OUTPUT stored, aligned or not.
The two spaces apart; addresses that agree in their low 12 bits name the same bytes (R52). -/
def Obligations.LoadReturnsTheStoredWord : Prop :=
  (∀ (rt rs rt' rs' : RegNum) (imm imm' : BitVec 16) (s : State),
    ∃ t, exec (.sw rt rs imm) s = .next t ∧
      ((s.reg rs + sext16 imm).toNat % 4096 = (s.reg rs' + sext16 imm').toNat % 4096 →
        ∃ u, exec (.lw rt' rs' imm') t = .next u ∧ u.reg rt' = (if rt' = 0 then 0 else s.reg rt))) ∧
  (∀ (rt rs rt' rs' : RegNum) (imm imm' : BitVec 16) (s : State),
    ∃ t, exec (.output rt rs imm) s = .next t ∧
      ((s.reg rs + sext16 imm).toNat % 4096 = (s.reg rs' + sext16 imm').toNat % 4096 →
        ∃ u, exec (.input rt' rs' imm') t = .next u ∧ u.reg rt' = (if rt' = 0 then 0 else s.reg rt)))

/-- The flags word has DBZ, IE, C, V, N, Z in bits 5 to 0 and zeros above; RETI reads those six bits and ignores the
rest.
The layout of R27 in both directions. -/
def Obligations.FlagsWordLayout : Prop :=
  (∀ f : Flags, flagsOfWord (flagsWord f) = f) ∧
  (∀ (f : Flags) (k : Nat), 6 ≤ k → (flagsWord f).getLsbD k = false) ∧
  (∀ f : Flags, (flagsWord f).getLsbD 5 = f.dbz ∧ (flagsWord f).getLsbD 4 = f.ie ∧ (flagsWord f).getLsbD 3 = f.c ∧
    (flagsWord f).getLsbD 2 = f.v ∧ (flagsWord f).getLsbD 1 = f.n ∧ (flagsWord f).getLsbD 0 = f.z) ∧
  (∀ v w : Word, v &&& 0x3F = w &&& 0x3F → flagsOfWord v = flagsOfWord w)

/-- ADD and ADDI write the wrapped sum and set C, V, N and Z; overflow does not trap.
R112, R162, with the encodings. IE is unchanged; DBZ is a free value. -/
def Obligations.AddAndAddiResults : Prop :=
  DecodesRType 0x20 (fun w => .add (rdField w) (rsField w) (rtField w)) ∧
  (∀ (rd rs rt : RegNum) (s : State), ∃ t, exec (.add rd rs rt) s = .next t ∧
    AluEffect rd (s.reg rs + s.reg rt) (AddFlags (s.reg rs) (s.reg rt)) s t) ∧
  DecodesMajor 0x08 (fun w => .addi (rtField w) (rsField w) (immField w)) ∧
  (∀ (rt rs : RegNum) (imm : BitVec 16) (s : State), ∃ t, exec (.addi rt rs imm) s = .next t ∧
    AluEffect rt (s.reg rs + imm.signExtend 32) (AddFlags (s.reg rs) (imm.signExtend 32)) s t)

/-- ADDU writes the wrapped sum; C and V are both the carry out, Z is zero.
R113. N and DBZ are free values. -/
def Obligations.AdduResult : Prop :=
  DecodesRType 0x21 (fun w => .addu (rdField w) (rsField w) (rtField w)) ∧
  (∀ (rd rs rt : RegNum) (s : State), ∃ t, exec (.addu rd rs rt) s = .next t ∧
    AluEffect rd (s.reg rs + s.reg rt) (AdduFlags (s.reg rs) (s.reg rt)) s t)

/-- SUB and SUBU write the wrapped difference; C is the borrow; V is overflow for SUB and the borrow for SUBU.
R130, R131. -/
def Obligations.SubAndSubuResults : Prop :=
  DecodesRType 0x22 (fun w => .sub (rdField w) (rsField w) (rtField w)) ∧
  (∀ (rd rs rt : RegNum) (s : State), ∃ t, exec (.sub rd rs rt) s = .next t ∧
    AluEffect rd (s.reg rs - s.reg rt) (SubFlags (s.reg rs) (s.reg rt)) s t) ∧
  DecodesRType 0x23 (fun w => .subu (rdField w) (rsField w) (rtField w)) ∧
  (∀ (rd rs rt : RegNum) (s : State), ∃ t, exec (.subu rd rs rt) s = .next t ∧
    AluEffect rd (s.reg rs - s.reg rt) (SubuFlags (s.reg rs) (s.reg rt)) s t)

/-- AND, NOR, OR and XOR write the bitwise result and set N and Z.
R114, R120, R121, R132. C, V and DBZ are free values. -/
def Obligations.LogicRegisterResults : Prop :=
  DecodesRType 0x24 (fun w => .and (rdField w) (rsField w) (rtField w)) ∧
  (∀ (rd rs rt : RegNum) (s : State), ∃ t, exec (.and rd rs rt) s = .next t ∧
    AluEffect rd (s.reg rs &&& s.reg rt) (LogicFlags (s.reg rs &&& s.reg rt)) s t) ∧
  DecodesRType 0x25 (fun w => .or (rdField w) (rsField w) (rtField w)) ∧
  (∀ (rd rs rt : RegNum) (s : State), ∃ t, exec (.or rd rs rt) s = .next t ∧
    AluEffect rd (s.reg rs ||| s.reg rt) (LogicFlags (s.reg rs ||| s.reg rt)) s t) ∧
  DecodesRType 0x26 (fun w => .xor (rdField w) (rsField w) (rtField w)) ∧
  (∀ (rd rs rt : RegNum) (s : State), ∃ t, exec (.xor rd rs rt) s = .next t ∧
    AluEffect rd (s.reg rs ^^^ s.reg rt) (LogicFlags (s.reg rs ^^^ s.reg rt)) s t) ∧
  DecodesRType 0x27 (fun w => .nor (rdField w) (rsField w) (rtField w)) ∧
  (∀ (rd rs rt : RegNum) (s : State), ∃ t, exec (.nor rd rs rt) s = .next t ∧
    AluEffect rd (~~~(s.reg rs ||| s.reg rt)) (LogicFlags (~~~(s.reg rs ||| s.reg rt))) s t)

/-- ANDI, ORI and XORI use the zero-extended immediate, LUI the upper immediate; all set N and Z.
R163, R172, R174, R178. -/
def Obligations.LogicImmediateResults : Prop :=
  DecodesMajor 0x0C (fun w => .andi (rtField w) (rsField w) (immField w)) ∧
  (∀ (rt rs : RegNum) (imm : BitVec 16) (s : State), ∃ t, exec (.andi rt rs imm) s = .next t ∧
    AluEffect rt (s.reg rs &&& imm.setWidth 32) (LogicFlags (s.reg rs &&& imm.setWidth 32)) s t) ∧
  DecodesMajor 0x0D (fun w => .ori (rtField w) (rsField w) (immField w)) ∧
  (∀ (rt rs : RegNum) (imm : BitVec 16) (s : State), ∃ t, exec (.ori rt rs imm) s = .next t ∧
    AluEffect rt (s.reg rs ||| imm.setWidth 32) (LogicFlags (s.reg rs ||| imm.setWidth 32)) s t) ∧
  DecodesMajor 0x0E (fun w => .xori (rtField w) (rsField w) (immField w)) ∧
  (∀ (rt rs : RegNum) (imm : BitVec 16) (s : State), ∃ t, exec (.xori rt rs imm) s = .next t ∧
    AluEffect rt (s.reg rs ^^^ imm.setWidth 32) (LogicFlags (s.reg rs ^^^ imm.setWidth 32)) s t) ∧
  DecodesMajor 0x0F (fun w => .lui (rtField w) (immField w)) ∧
  (∀ (rt : RegNum) (imm : BitVec 16) (s : State), ∃ t, exec (.lui rt imm) s = .next t ∧
    AluEffect rt (imm ++ 0#16) (LogicFlags (imm ++ 0#16)) s t)

/-- SLT, SLTI, SLTU and SLTIU write 1 or 0; SLTIU compares unsigned with the sign-extended immediate.
R126, R127, R175, R176. Z is 1 exactly when the comparison is false; N is 0 for the signed ones. -/
def Obligations.SetLessThanResults : Prop :=
  DecodesRType 0x2A (fun w => .slt (rdField w) (rsField w) (rtField w)) ∧
  (∀ (rd rs rt : RegNum) (s : State), ∃ t, exec (.slt rd rs rt) s = .next t ∧
    AluEffect rd (if (s.reg rs).toInt < (s.reg rt).toInt then 1 else 0)
      (fun f => f.n = false ∧ (f.z = true ↔ ¬ (s.reg rs).toInt < (s.reg rt).toInt)) s t) ∧
  DecodesRType 0x2B (fun w => .sltu (rdField w) (rsField w) (rtField w)) ∧
  (∀ (rd rs rt : RegNum) (s : State), ∃ t, exec (.sltu rd rs rt) s = .next t ∧
    AluEffect rd (if (s.reg rs).toNat < (s.reg rt).toNat then 1 else 0)
      (fun f => (f.z = true ↔ ¬ (s.reg rs).toNat < (s.reg rt).toNat)) s t) ∧
  DecodesMajor 0x0A (fun w => .slti (rtField w) (rsField w) (immField w)) ∧
  (∀ (rt rs : RegNum) (imm : BitVec 16) (s : State), ∃ t, exec (.slti rt rs imm) s = .next t ∧
    AluEffect rt (if (s.reg rs).toInt < (imm.signExtend 32).toInt then 1 else 0)
      (fun f => f.n = false ∧ (f.z = true ↔ ¬ (s.reg rs).toInt < (imm.signExtend 32).toInt)) s t) ∧
  DecodesMajor 0x0B (fun w => .sltiu (rtField w) (rsField w) (immField w)) ∧
  (∀ (rt rs : RegNum) (imm : BitVec 16) (s : State), ∃ t, exec (.sltiu rt rs imm) s = .next t ∧
    AluEffect rt (if (s.reg rs).toNat < (imm.signExtend 32).toNat then 1 else 0)
      (fun f => (f.z = true ↔ ¬ (s.reg rs).toNat < (imm.signExtend 32).toNat)) s t)

/-- SLL and SRL write the shifted value; the flags are those of a one-place shift, whatever the amount.
R125, R129, for the amounts 0 to 31 that the field holds. V and DBZ are free values. -/
def Obligations.LogicalShiftResults : Prop :=
  DecodesRType 0x00 (fun w => .sll (rdField w) (rtField w) (shamtField w)) ∧
  (∀ (rd rt : RegNum) (n : Nat) (s : State), n < 32 → ∃ t, exec (.sll rd rt n) s = .next t ∧
    AluEffect rd (BitVec.ofNat 32 ((s.reg rt).toNat * 2 ^ n)) (fun f => f.c = (s.reg rt).getLsbD 31 ∧
      f.n = (s.reg rt).getLsbD 30 ∧ (f.z = true ↔ ∀ k < 31, (s.reg rt).getLsbD k = false)) s t) ∧
  DecodesRType 0x02 (fun w => .srl (rdField w) (rtField w) (shamtField w)) ∧
  (∀ (rd rt : RegNum) (n : Nat) (s : State), n < 32 → ∃ t, exec (.srl rd rt n) s = .next t ∧
    AluEffect rd (BitVec.ofNat 32 ((s.reg rt).toNat / 2 ^ n)) (fun f => f.c = (s.reg rt).getLsbD 0 ∧
      f.n = false ∧ (f.z = true ↔ ∀ k < 32, 1 ≤ k → (s.reg rt).getLsbD k = false)) s t)

/-- SRA shifts logically and restores bit 31 alone under SRA_FILL = rtl, fills with the sign under isa; the two agree
by 0 or 1 place.
R128 under both values of the parameter, which stands in State. They agree also for a value that is not
negative. -/
def Obligations.ArithmeticShiftResult : Prop :=
  DecodesRType 0x03 (fun w => .sra (rdField w) (rtField w) (shamtField w)) ∧
  (∀ (rd rt : RegNum) (n : Nat) (s : State), n < 32 → ∃ t y, exec (.sra rd rt n) s = .next t ∧
    (s.variant.sraFill = .rtl →
      (∀ k < 31, y.getLsbD k = (decide (n + k < 32) && (s.reg rt).getLsbD (n + k))) ∧ y.msb = (s.reg rt).msb) ∧
    (s.variant.sraFill = .isa →
      ∀ k < 32, y.getLsbD k = if n + k < 32 then (s.reg rt).getLsbD (n + k) else (s.reg rt).msb) ∧
    (n ≤ 1 ∨ (s.reg rt).msb = false → y = (s.reg rt).sshiftRight n) ∧
    AluEffect rd y (fun f => f.c = (s.reg rt).getLsbD 0 ∧ f.n = (s.reg rt).msb ∧
      (f.z = true ↔ ∀ k < 32, 1 ≤ k → (s.reg rt).getLsbD k = false)) s t)

/-- RR rotates x[rt] right by 0 to 31 places and changes no flag.
R124: bit k of the result is bit (k + n) modulo 32 of the operand. -/
def Obligations.RotateRightResult : Prop :=
  DecodesRType 0x34 (fun w => .rr (rdField w) (rtField w) (shamtField w)) ∧
  (∀ (rd rt : RegNum) (n : Nat) (s : State), n < 32 → ∃ t y, exec (.rr rd rt n) s = .next t ∧
    (∀ k < 32, y.getLsbD k = (s.reg rt).getLsbD ((k + n) % 32)) ∧ MoveEffect rd y s t)

/-- RB reverses the bits of x[rs], RBO its bytes; applied twice each restores the value; no flag changes.
R122, R123. -/
def Obligations.BitAndByteReversalResults : Prop :=
  DecodesRType 0x2C (fun w => .rb (rdField w) (rsField w)) ∧
  (∀ (rd rs : RegNum) (s : State), ∃ t y, exec (.rb rd rs) s = .next t ∧
    (∀ k < 32, y.getLsbD k = (s.reg rs).getLsbD (31 - k)) ∧ MoveEffect rd y s t ∧
    (rd ≠ 0 → ∃ u, exec (.rb rd rd) t = .next u ∧ u.reg rd = s.reg rs)) ∧
  DecodesRType 0x2D (fun w => .rbo (rdField w) (rsField w)) ∧
  (∀ (rd rs : RegNum) (s : State), ∃ t y, exec (.rbo rd rs) s = .next t ∧
    (∀ j : Fin 4, wordByte y j = wordByte (s.reg rs) j.rev) ∧ MoveEffect rd y s t ∧
    (rd ≠ 0 → ∃ u, exec (.rbo rd rd) t = .next u ∧ u.reg rd = s.reg rs))

/-- MULT writes the exact signed 64-bit product to HI:LO, N its sign and Z whether it is zero.
R119. C, V and DBZ are free values. -/
def Obligations.MultResult : Prop :=
  DecodesRType 0x18 (fun w => .mult (rsField w) (rtField w)) ∧
  (∀ (rs rt : RegNum) (s : State), ∃ t, exec (.mult rs rt) s = .next t ∧
    (t.hi ++ t.lo).toInt = (s.reg rs).toInt * (s.reg rt).toInt ∧
    (t.flags.n = true ↔ (s.reg rs).toInt * (s.reg rt).toInt < 0) ∧
    (t.flags.z = true ↔ (s.reg rs).toInt * (s.reg rt).toInt = 0) ∧
    SameIe s t ∧ SameButHiLos s t ∧ SameVHiLo s t)

/-- DIV writes quotient and remainder and clears DBZ; a zero divisor sets DBZ; the overflowing division clears it;
neither traps.
R115, its three cases. With a zero divisor HI, LO and the other status flags are free values (D10; log entry
12); that the division of -2^31 by -1 clears DBZ and leaves them free is the spec's own decision D11 (log entry
13): of a free value nothing is said. -/
def Obligations.DivResult : Prop :=
  DecodesRType 0x1A (fun w => .div (rsField w) (rtField w)) ∧
  (∀ (rs rt : RegNum) (s : State), ∃ t, exec (.div rs rt) s = .next t ∧
    SameIe s t ∧ SameButHiLos s t ∧ SameVHiLo s t ∧
    (s.reg rt = 0 → t.flags.dbz = true) ∧
    (s.reg rs = 0x80000000 → s.reg rt = 0xFFFFFFFF → t.flags.dbz = false) ∧
    (s.reg rt ≠ 0 → ¬ (s.reg rs = 0x80000000 ∧ s.reg rt = 0xFFFFFFFF) →
      t.lo.toInt = (s.reg rs).toInt.tdiv (s.reg rt).toInt ∧ t.hi.toInt = (s.reg rs).toInt.tmod (s.reg rt).toInt ∧
      t.flags.dbz = false ∧ t.flags.n = t.lo.msb ∧ (t.flags.z = true ↔ t.lo = 0 ∧ t.hi = 0)))

/-- MFHI, MFLO copy hi, lo and VMFHI, VMFLO copy vhi, vlo, under either mode value, to the destination alone.
R117, R118, R239, R240. -/
def Obligations.MovesFromHiAndLo : Prop :=
  DecodesRType 0x10 (fun w => .mfhi (rdField w)) ∧
  (∀ (rd : RegNum) (s : State), ∃ t, exec (.mfhi rd) s = .next t ∧ MoveEffect rd s.hi s t) ∧
  DecodesRType 0x12 (fun w => .mflo (rdField w)) ∧
  (∀ (rd : RegNum) (s : State), ∃ t, exec (.mflo rd) s = .next t ∧ MoveEffect rd s.lo s t) ∧
  DecodesVType 0x0A 0b01 (fun w => .vmfhi8 (rdField w)) ∧
  (∀ (rd : RegNum) (s : State), ∃ t, exec (.vmfhi8 rd) s = .next t ∧ MoveEffect rd s.vhi s t) ∧
  DecodesVType 0x0A 0b10 (fun w => .vmfhi16 (rdField w)) ∧
  (∀ (rd : RegNum) (s : State), ∃ t, exec (.vmfhi16 rd) s = .next t ∧ MoveEffect rd s.vhi s t) ∧
  DecodesVType 0x0B 0b01 (fun w => .vmflo8 (rdField w)) ∧
  (∀ (rd : RegNum) (s : State), ∃ t, exec (.vmflo8 rd) s = .next t ∧ MoveEffect rd s.vlo s t) ∧
  DecodesVType 0x0B 0b10 (fun w => .vmflo16 (rdField w)) ∧
  (∀ (rd : RegNum) (s : State), ∃ t, exec (.vmflo16 rd) s = .next t ∧ MoveEffect rd s.vlo s t)

/-- JR copies all 32 bits of x[rs] to pc and changes nothing else.
R116: no alignment check. -/
def Obligations.JumpRegisterResult : Prop :=
  DecodesRType 0x08 (fun w => .jr (rsField w)) ∧
  (∀ (rs : RegNum) (s : State), ∃ t, exec (.jr rs) s = .next t ∧ t.pc = s.reg rs ∧ SameRegs s t ∧
    t.flags = s.flags ∧ SameRest s t)

/-- JALR writes the address after it to register 31 and jumps to the old x[rs] exactly if JALR_JUMPS.
R134 under both values of the parameter, which stands in State. The target is read before the link is written. -/
def Obligations.JumpAndLinkRegisterResult : Prop :=
  DecodesRType 0x09 (fun w => .jalr (rsField w)) ∧
  (∀ (rs : RegNum) (s : State), ∃ t, exec (.jalr rs) s = .next t ∧ WroteReg 31 s.pc s t ∧
    t.pc = (if s.variant.jalrJumps then s.reg rs else s.pc) ∧ t.flags = s.flags ∧ SameRest s t)

/-- BREAK ends the run and changes nothing else.
R135. That the end of run is the next state, and that a step from it is the fault brk unless the host pulses
reset, is the model's choice (log entry 9). -/
def Obligations.BreakEndsTheRun : Prop :=
  DecodesRType 0x0D (fun _ => .brk) ∧
  (∀ s : State, ∃ t, exec .brk s = .next t ∧ t.ended = some .brk ∧ SameRegs s t ∧ t.pc = s.pc ∧ t.flags = s.flags ∧
    SameHiLo s t ∧ SameVHiLo s t ∧ SameMemories s t ∧ t.ir = s.ir ∧ t.intAck = s.intAck ∧ t.intr = s.intr ∧
    t.hostMoves = s.hostMoves ∧ t.variant = s.variant ∧
    (t.hostMove.reset = false → step t = .fault (.brk s.pc)))

/-- SETIE inverts IE and changes nothing else.
R136. -/
def Obligations.SetieTogglesIe : Prop :=
  DecodesRType 0x1F (fun _ => .setie) ∧
  (∀ s : State, ∃ t, exec .setie s = .next t ∧ t.flags = { s.flags with ie := !s.flags.ie } ∧ SameRegs s t ∧
    t.pc = s.pc ∧ SameRest s t)

/-- BSI and BCI set and clear the bit that the low six bits of the immediate name; an index of 32 or more changes no
bit.
R164, R171. No flag changes. -/
def Obligations.BitSetAndClearResults : Prop :=
  DecodesMajor 0x24 (fun w => .bsi (rtField w) (rsField w) (immField w)) ∧
  (∀ (rt rs : RegNum) (imm : BitVec 16) (s : State), ∃ t y, exec (.bsi rt rs imm) s = .next t ∧
    (∀ k < 32, y.getLsbD k = if k = imm.toNat % 64 then true else (s.reg rs).getLsbD k) ∧ MoveEffect rt y s t) ∧
  DecodesMajor 0x25 (fun w => .bci (rtField w) (rsField w) (immField w)) ∧
  (∀ (rt rs : RegNum) (imm : BitVec 16) (s : State), ∃ t y, exec (.bci rt rs imm) s = .next t ∧
    (∀ k < 32, y.getLsbD k = if k = imm.toNat % 64 then false else (s.reg rs).getLsbD k) ∧ MoveEffect rt y s t)

/-- BEQ and BNE write the flags of the subtraction, taken or not, and branch on equality.
R167, R170. The target is relative to the address after the branch (R161). -/
def Obligations.CompareBranchResults : Prop :=
  DecodesMajor 0x04 (fun w => .beq (rsField w) (rtField w) (offField w)) ∧
  (∀ (rs rt : RegNum) (off : Int) (s : State), ∃ t, exec (.beq rs rt off) s = .next t ∧
    BranchEffect (s.reg rs = s.reg rt) off (SubFlags (s.reg rs) (s.reg rt)) s t) ∧
  DecodesMajor 0x05 (fun w => .bne (rsField w) (rtField w) (offField w)) ∧
  (∀ (rs rt : RegNum) (off : Int) (s : State), ∃ t, exec (.bne rs rt off) s = .next t ∧
    BranchEffect (s.reg rs ≠ s.reg rt) off (SubFlags (s.reg rs) (s.reg rt)) s t)

/-- BGTZ, BLEZ, BGEZ and BLTZ write N and Z of x[rs], taken or not, and branch on its sign.
R168, R169, R180, R181. -/
def Obligations.ZeroBranchResults : Prop :=
  DecodesMajor 0x07 (fun w => .bgtz (rsField w) (offField w)) ∧
  (∀ (rs : RegNum) (off : Int) (s : State), ∃ t, exec (.bgtz rs off) s = .next t ∧
    BranchEffect (0 < (s.reg rs).toInt) off (LogicFlags (s.reg rs)) s t) ∧
  DecodesMajor 0x06 (fun w => .blez (rsField w) (offField w)) ∧
  (∀ (rs : RegNum) (off : Int) (s : State), ∃ t, exec (.blez rs off) s = .next t ∧
    BranchEffect ((s.reg rs).toInt ≤ 0) off (LogicFlags (s.reg rs)) s t) ∧
  DecodesMajor 0x01 (fun w => .bgez (rsField w) (offField w)) ∧
  (∀ (rs : RegNum) (off : Int) (s : State), ∃ t, exec (.bgez rs off) s = .next t ∧
    BranchEffect (0 ≤ (s.reg rs).toInt) off (LogicFlags (s.reg rs)) s t) ∧
  DecodesMajor 0x09 (fun w => .bltz (rsField w) (offField w)) ∧
  (∀ (rs : RegNum) (off : Int) (s : State), ∃ t, exec (.bltz rs off) s = .next t ∧
    BranchEffect ((s.reg rs).toInt < 0) off (LogicFlags (s.reg rs)) s t)

/-- BDF branches when DBZ is 0, BDT when it is 1; no flag changes.
R165, R166. Where DBZ is a free value either way is possible (R11). -/
def Obligations.DivideByZeroBranchResults : Prop :=
  DecodesMajor 0x10 (fun w => .bdt (offField w)) ∧
  (∀ (off : Int) (s : State), ∃ t, exec (.bdt off) s = .next t ∧ t.flags = s.flags ∧
    BranchEffect (s.flags.dbz = true) off (fun _ => True) s t) ∧
  DecodesMajor 0x11 (fun w => .bdf (offField w)) ∧
  (∀ (off : Int) (s : State), ∃ t, exec (.bdf off) s = .next t ∧ t.flags = s.flags ∧
    BranchEffect (s.flags.dbz = false) off (fun _ => True) s t)

/-- LW and INPUT load the big-endian word at the low 12 bits of the sum; the flags are those of the address addition.
R173, R210. A byte that nothing has written reads as any value (R46; log entry 3): `ReadsWord` says so. -/
def Obligations.LoadResults : Prop :=
  DecodesMajor 0x23 (fun w => .lw (rtField w) (rsField w) (immField w)) ∧
  (∀ (rt rs : RegNum) (imm : BitVec 16) (s : State), ∃ t v, exec (.lw rt rs imm) s = .next t ∧
    ReadsWord s.dmem (idx (s.reg rs + imm.signExtend 32)) v ∧
    AluEffect rt v (AddFlags (s.reg rs) (imm.signExtend 32)) s t) ∧
  DecodesMajor 0x1C (fun w => .input (rtField w) (rsField w) (immField w)) ∧
  (∀ (rt rs : RegNum) (imm : BitVec 16) (s : State), ∃ t v, exec (.input rt rs imm) s = .next t ∧
    ReadsWord s.iomem (idx (s.reg rs + imm.signExtend 32)) v ∧
    AluEffect rt v (AddFlags (s.reg rs) (imm.signExtend 32)) s t)

/-- SW and OUTPUT store x[rt] big-endian at the low 12 bits of the sum and change no other byte.
R177, R211, R57, R59. -/
def Obligations.StoreResults : Prop :=
  DecodesMajor 0x2B (fun w => .sw (rtField w) (rsField w) (immField w)) ∧
  (∀ (rt rs : RegNum) (imm : BitVec 16) (s : State), ∃ t, exec (.sw rt rs imm) s = .next t ∧
    HoldsWord t.dmem (idx (s.reg rs + imm.signExtend 32)) (s.reg rt) ∧
    SameBytesOutside (idx (s.reg rs + imm.signExtend 32)) s.dmem t.dmem ∧
    AddFlags (s.reg rs) (imm.signExtend 32) t.flags ∧ SameIe s t ∧ SameRegs s t ∧ t.pc = s.pc ∧ SameHiLo s t ∧
    SameVHiLo s t ∧ SameImem s t ∧ SameIomem s t ∧ SameControl s t) ∧
  DecodesMajor 0x1D (fun w => .output (rtField w) (rsField w) (immField w)) ∧
  (∀ (rt rs : RegNum) (imm : BitVec 16) (s : State), ∃ t, exec (.output rt rs imm) s = .next t ∧
    HoldsWord t.iomem (idx (s.reg rs + imm.signExtend 32)) (s.reg rt) ∧
    SameBytesOutside (idx (s.reg rs + imm.signExtend 32)) s.iomem t.iomem ∧
    AddFlags (s.reg rs) (imm.signExtend 32) t.flags ∧ SameIe s t ∧ SameRegs s t ∧ t.pc = s.pc ∧ SameHiLo s t ∧
    SameVHiLo s t ∧ SameImem s t ∧ SameDmem s t ∧ SameControl s t)

/-- J goes to the four upper bits of pc, the 26-bit field and two zero bits.
R200; `pc` is the address of the jump plus 4. -/
def Obligations.JumpResult : Prop :=
  DecodesMajor 0x02 (fun w => .j (addrField w)) ∧
  (∀ (addr : BitVec 26) (s : State), ∃ t, exec (.j addr) s = .next t ∧
    t.pc = s.pc.extractLsb' 28 4 ++ addr ++ 0#2 ∧ SameRegs s t ∧ t.flags = s.flags ∧ SameRest s t)

/-- JAL links the address after it in register 31 and jumps as J does.
R201: the link is the address of the JAL plus 4, there is no delay slot. -/
def Obligations.JumpAndLinkResult : Prop :=
  DecodesMajor 0x03 (fun w => .jal (addrField w)) ∧
  (∀ (addr : BitVec 26) (s : State), ∃ t, exec (.jal addr) s = .next t ∧ WroteReg 31 s.pc s t ∧
    t.pc = s.pc.extractLsb' 28 4 ++ addr ++ 0#2 ∧ t.flags = s.flags ∧ SameRest s t)

/-- RETI pops the flags word and the return address, adds 8 to $sp and leaves int_ack.
R212. Bytes that nothing has written read as any value, so the popped words are any that `ReadsWord` allows. -/
def Obligations.RetiResult : Prop :=
  DecodesMajor 0x1E (fun _ => .reti) ∧
  (∀ s : State, ∃ t w a, exec .reti s = .next t ∧ ReadsWord s.dmem (idx (s.reg 29)) w ∧
    ReadsWord s.dmem (idx (s.reg 29 + 4)) a ∧
    t.flags = { dbz := w.getLsbD 5, ie := w.getLsbD 4, c := w.getLsbD 3, v := w.getLsbD 2, n := w.getLsbD 1,
                z := w.getLsbD 0 } ∧
    t.pc = a ∧ WroteReg 29 (s.reg 29 + 8) s t ∧ SameRest s t)

/-- ADD8, ADD16, SUB8 and SUB16 add and subtract lane by lane without carry or borrow between lanes; no flag changes.
R223, R224, R235, R236; lane 0 is the least significant (R220). -/
def Obligations.VectorAddAndSubtractResults : Prop :=
  DecodesVType 0x02 0b01 (fun w => .add8 (rdField w) (rsField w) (rtField w)) ∧
  (∀ (rd rs rt : RegNum) (s : State), ∃ t y, exec (.add8 rd rs rt) s = .next t ∧
    (∀ k < 4, (lane8 y k).toNat = ((lane8 (s.reg rs) k).toNat + (lane8 (s.reg rt) k).toNat) % 256) ∧
      MoveEffect rd y s t) ∧
  DecodesVType 0x02 0b10 (fun w => .add16 (rdField w) (rsField w) (rtField w)) ∧
  (∀ (rd rs rt : RegNum) (s : State), ∃ t y, exec (.add16 rd rs rt) s = .next t ∧
    (∀ k < 2, (lane16 y k).toNat = ((lane16 (s.reg rs) k).toNat + (lane16 (s.reg rt) k).toNat) % 65536) ∧
      MoveEffect rd y s t) ∧
  DecodesVType 0x03 0b01 (fun w => .sub8 (rdField w) (rsField w) (rtField w)) ∧
  (∀ (rd rs rt : RegNum) (s : State), ∃ t y, exec (.sub8 rd rs rt) s = .next t ∧
    (∀ k < 4, (lane8 y k).toNat = ((lane8 (s.reg rs) k).toNat + 256 - (lane8 (s.reg rt) k).toNat) % 256) ∧
      MoveEffect rd y s t) ∧
  DecodesVType 0x03 0b10 (fun w => .sub16 (rdField w) (rsField w) (rtField w)) ∧
  (∀ (rd rs rt : RegNum) (s : State), ∃ t y, exec (.sub16 rd rs rt) s = .next t ∧
    (∀ k < 2, (lane16 y k).toNat = ((lane16 (s.reg rs) k).toNat + 65536 - (lane16 (s.reg rt) k).toNat) % 65536) ∧
      MoveEffect rd y s t)

/-- AND, OR, XOR and NOT in both modes write the 32-bit bitwise result and change no flag.
R225, R226, R231 to R234, R237, R238. -/
def Obligations.VectorLogicResults : Prop :=
  DecodesVType 0x04 0b01 (fun w => .and8 (rdField w) (rsField w) (rtField w)) ∧
  (∀ (rd rs rt : RegNum) (s : State), ∃ t, exec (.and8 rd rs rt) s = .next t ∧
    MoveEffect rd (s.reg rs &&& s.reg rt) s t) ∧
  DecodesVType 0x04 0b10 (fun w => .and16 (rdField w) (rsField w) (rtField w)) ∧
  (∀ (rd rs rt : RegNum) (s : State), ∃ t, exec (.and16 rd rs rt) s = .next t ∧
    MoveEffect rd (s.reg rs &&& s.reg rt) s t) ∧
  DecodesVType 0x05 0b01 (fun w => .or8 (rdField w) (rsField w) (rtField w)) ∧
  (∀ (rd rs rt : RegNum) (s : State), ∃ t, exec (.or8 rd rs rt) s = .next t ∧
    MoveEffect rd (s.reg rs ||| s.reg rt) s t) ∧
  DecodesVType 0x05 0b10 (fun w => .or16 (rdField w) (rsField w) (rtField w)) ∧
  (∀ (rd rs rt : RegNum) (s : State), ∃ t, exec (.or16 rd rs rt) s = .next t ∧
    MoveEffect rd (s.reg rs ||| s.reg rt) s t) ∧
  DecodesVType 0x07 0b01 (fun w => .xor8 (rdField w) (rsField w) (rtField w)) ∧
  (∀ (rd rs rt : RegNum) (s : State), ∃ t, exec (.xor8 rd rs rt) s = .next t ∧
    MoveEffect rd (s.reg rs ^^^ s.reg rt) s t) ∧
  DecodesVType 0x07 0b10 (fun w => .xor16 (rdField w) (rsField w) (rtField w)) ∧
  (∀ (rd rs rt : RegNum) (s : State), ∃ t, exec (.xor16 rd rs rt) s = .next t ∧
    MoveEffect rd (s.reg rs ^^^ s.reg rt) s t) ∧
  DecodesVType 0x06 0b01 (fun w => .not8 (rdField w) (rsField w)) ∧
  (∀ (rd rs : RegNum) (s : State), ∃ t, exec (.not8 rd rs) s = .next t ∧ MoveEffect rd (~~~s.reg rs) s t) ∧
  DecodesVType 0x06 0b10 (fun w => .not16 (rdField w) (rsField w)) ∧
  (∀ (rd rs : RegNum) (s : State), ∃ t, exec (.not16 rd rs) s = .next t ∧ MoveEffect rd (~~~s.reg rs) s t)

/-- MUL8 writes four unsigned 16-bit products and MUL16 two unsigned 32-bit products to vhi:vlo alone.
R229, R230. -/
def Obligations.VectorMultiplyResults : Prop :=
  DecodesVType 0x08 0b01 (fun w => .mul8 (rsField w) (rtField w)) ∧
  (∀ (rs rt : RegNum) (s : State), ∃ t, exec (.mul8 rs rt) s = .next t ∧
    (∀ k < 4, (vectorHalf t k).toNat = (lane8 (s.reg rs) k).toNat * (lane8 (s.reg rt) k).toNat) ∧
    SameButVHiLo s t) ∧
  DecodesVType 0x08 0b10 (fun w => .mul16 (rsField w) (rtField w)) ∧
  (∀ (rs rt : RegNum) (s : State), ∃ t, exec (.mul16 rs rt) s = .next t ∧
    t.vlo.toNat = (lane16 (s.reg rs) 0).toNat * (lane16 (s.reg rt) 0).toNat ∧
    t.vhi.toNat = (lane16 (s.reg rs) 1).toNat * (lane16 (s.reg rt) 1).toNat ∧ SameButVHiLo s t)

/-- DIV8 and DIV16 write unsigned remainder and quotient of each lane; a zero divisor leaves its own lane open and
raises nothing.
R227, R228. That a zero divisor makes the fields of its own lane free values and leaves the other lanes and DBZ
as they are is the spec's own decision D12 (log entry 14); of the free fields nothing is said. -/
def Obligations.VectorDivideResults : Prop :=
  DecodesVType 0x09 0b01 (fun w => .div8 (rsField w) (rtField w)) ∧
  (∀ (rs rt : RegNum) (s : State), ∃ t, exec (.div8 rs rt) s = .next t ∧ SameButVHiLo s t ∧
    (∀ k < 4, lane8 (s.reg rt) k ≠ 0 →
      ((vectorHalf t k).extractLsb' 0 8).toNat = (lane8 (s.reg rs) k).toNat / (lane8 (s.reg rt) k).toNat ∧
      ((vectorHalf t k).extractLsb' 8 8).toNat = (lane8 (s.reg rs) k).toNat % (lane8 (s.reg rt) k).toNat)) ∧
  DecodesVType 0x09 0b10 (fun w => .div16 (rsField w) (rtField w)) ∧
  (∀ (rs rt : RegNum) (s : State), ∃ t, exec (.div16 rs rt) s = .next t ∧ SameButVHiLo s t ∧
    (∀ k < 2, lane16 (s.reg rt) k ≠ 0 →
      (vectorHalf t (2 * k)).toNat = (lane16 (s.reg rs) k).toNat / (lane16 (s.reg rt) k).toNat ∧
      (vectorHalf t (2 * k + 1)).toNat = (lane16 (s.reg rs) k).toNat % (lane16 (s.reg rt) k).toNat))

/-- The machine started with given parameters holds the three images and nothing else in memory, the trace, the
variant and the reset values.
The open parameters of R6 as arguments. Where an image names an index twice the last value counts, and an index
that is no byte names nothing: that is the model's form of a partial map (log entry 22). `State.reset` is the
machine with every parameter at its default. -/
def Obligations.StartHoldsItsParameters : Prop :=
  State.start defaultParams = State.reset ∧
  ∀ p : Params,
    (∀ a < memBytes, (State.start p).imem.byte? a = lastNamed p.imemImage a ∧
      (State.start p).dmem.byte? a = lastNamed p.dmemImage a ∧
      (State.start p).iomem.byte? a = lastNamed p.iomemImage a) ∧
    (∀ a, memBytes ≤ a → (State.start p).imem.byte? a = none ∧ (State.start p).dmem.byte? a = none ∧
      (State.start p).iomem.byte? a = none) ∧
    (State.start p).hostMoves = p.intrTrace ∧ (State.start p).variant = p.variant ∧
    SameRegs State.reset (State.start p) ∧ (State.start p).pc = 0 ∧ SameHiLo State.reset (State.start p) ∧
    SameVHiLo State.reset (State.start p) ∧ (State.start p).flags = State.reset.flags ∧
    (State.start p).intAck = false ∧ (State.start p).ir = 0 ∧ (State.start p).ended = none ∧
    (State.start p).intr = false
end

