-- ==== Sys2Proof/Laws/State.lean ====
section
/-! SUPPORT. One lemma per field per update of the state, true by unfolding the record update once. -/

namespace Sys2Proof.Machine

variable (s : State)

/-! ### `State.setPc` -/

@[simp] theorem State.setPc_regs (a : Word) : (s.setPc a).regs = s.regs := rfl
@[simp] theorem State.setPc_pc (a : Word) : (s.setPc a).pc = a := rfl
@[simp] theorem State.setPc_hi (a : Word) : (s.setPc a).hi = s.hi := rfl
@[simp] theorem State.setPc_lo (a : Word) : (s.setPc a).lo = s.lo := rfl
@[simp] theorem State.setPc_vhi (a : Word) : (s.setPc a).vhi = s.vhi := rfl
@[simp] theorem State.setPc_vlo (a : Word) : (s.setPc a).vlo = s.vlo := rfl
@[simp] theorem State.setPc_flags (a : Word) : (s.setPc a).flags = s.flags := rfl
@[simp] theorem State.setPc_intAck (a : Word) : (s.setPc a).intAck = s.intAck := rfl
@[simp] theorem State.setPc_ir (a : Word) : (s.setPc a).ir = s.ir := rfl
@[simp] theorem State.setPc_imem (a : Word) : (s.setPc a).imem = s.imem := rfl
@[simp] theorem State.setPc_dmem (a : Word) : (s.setPc a).dmem = s.dmem := rfl
@[simp] theorem State.setPc_iomem (a : Word) : (s.setPc a).iomem = s.iomem := rfl
@[simp] theorem State.setPc_ended (a : Word) : (s.setPc a).ended = s.ended := rfl
@[simp] theorem State.setPc_intr (a : Word) : (s.setPc a).intr = s.intr := rfl
@[simp] theorem State.setPc_hostMoves (a : Word) : (s.setPc a).hostMoves = s.hostMoves := rfl
@[simp] theorem State.setPc_variant (a : Word) : (s.setPc a).variant = s.variant := rfl
@[simp] theorem State.setPc_draws (a : Word) : (s.setPc a).draws = s.draws := rfl
@[simp] theorem State.setPc_reg (a : Word) (r : RegNum) : (s.setPc a).reg r = s.reg r := rfl

/-! ### `State.setHiLo` -/

@[simp] theorem State.setHiLo_regs (h l : Word) : (s.setHiLo h l).regs = s.regs := rfl
@[simp] theorem State.setHiLo_pc (h l : Word) : (s.setHiLo h l).pc = s.pc := rfl
@[simp] theorem State.setHiLo_hi (h l : Word) : (s.setHiLo h l).hi = h := rfl
@[simp] theorem State.setHiLo_lo (h l : Word) : (s.setHiLo h l).lo = l := rfl
@[simp] theorem State.setHiLo_vhi (h l : Word) : (s.setHiLo h l).vhi = s.vhi := rfl
@[simp] theorem State.setHiLo_vlo (h l : Word) : (s.setHiLo h l).vlo = s.vlo := rfl
@[simp] theorem State.setHiLo_flags (h l : Word) : (s.setHiLo h l).flags = s.flags := rfl
@[simp] theorem State.setHiLo_intAck (h l : Word) : (s.setHiLo h l).intAck = s.intAck := rfl
@[simp] theorem State.setHiLo_ir (h l : Word) : (s.setHiLo h l).ir = s.ir := rfl
@[simp] theorem State.setHiLo_imem (h l : Word) : (s.setHiLo h l).imem = s.imem := rfl
@[simp] theorem State.setHiLo_dmem (h l : Word) : (s.setHiLo h l).dmem = s.dmem := rfl
@[simp] theorem State.setHiLo_iomem (h l : Word) : (s.setHiLo h l).iomem = s.iomem := rfl
@[simp] theorem State.setHiLo_ended (h l : Word) : (s.setHiLo h l).ended = s.ended := rfl
@[simp] theorem State.setHiLo_intr (h l : Word) : (s.setHiLo h l).intr = s.intr := rfl
@[simp] theorem State.setHiLo_hostMoves (h l : Word) : (s.setHiLo h l).hostMoves = s.hostMoves := rfl
@[simp] theorem State.setHiLo_variant (h l : Word) : (s.setHiLo h l).variant = s.variant := rfl
@[simp] theorem State.setHiLo_draws (h l : Word) : (s.setHiLo h l).draws = s.draws := rfl
@[simp] theorem State.setHiLo_reg (h l : Word) (r : RegNum) : (s.setHiLo h l).reg r = s.reg r := rfl

/-! ### `State.setVHiLo` -/

@[simp] theorem State.setVHiLo_regs (h l : Word) : (s.setVHiLo h l).regs = s.regs := rfl
@[simp] theorem State.setVHiLo_pc (h l : Word) : (s.setVHiLo h l).pc = s.pc := rfl
@[simp] theorem State.setVHiLo_hi (h l : Word) : (s.setVHiLo h l).hi = s.hi := rfl
@[simp] theorem State.setVHiLo_lo (h l : Word) : (s.setVHiLo h l).lo = s.lo := rfl
@[simp] theorem State.setVHiLo_vhi (h l : Word) : (s.setVHiLo h l).vhi = h := rfl
@[simp] theorem State.setVHiLo_vlo (h l : Word) : (s.setVHiLo h l).vlo = l := rfl
@[simp] theorem State.setVHiLo_flags (h l : Word) : (s.setVHiLo h l).flags = s.flags := rfl
@[simp] theorem State.setVHiLo_intAck (h l : Word) : (s.setVHiLo h l).intAck = s.intAck := rfl
@[simp] theorem State.setVHiLo_ir (h l : Word) : (s.setVHiLo h l).ir = s.ir := rfl
@[simp] theorem State.setVHiLo_imem (h l : Word) : (s.setVHiLo h l).imem = s.imem := rfl
@[simp] theorem State.setVHiLo_dmem (h l : Word) : (s.setVHiLo h l).dmem = s.dmem := rfl
@[simp] theorem State.setVHiLo_iomem (h l : Word) : (s.setVHiLo h l).iomem = s.iomem := rfl
@[simp] theorem State.setVHiLo_ended (h l : Word) : (s.setVHiLo h l).ended = s.ended := rfl
@[simp] theorem State.setVHiLo_intr (h l : Word) : (s.setVHiLo h l).intr = s.intr := rfl
@[simp] theorem State.setVHiLo_hostMoves (h l : Word) : (s.setVHiLo h l).hostMoves = s.hostMoves := rfl
@[simp] theorem State.setVHiLo_variant (h l : Word) : (s.setVHiLo h l).variant = s.variant := rfl
@[simp] theorem State.setVHiLo_draws (h l : Word) : (s.setVHiLo h l).draws = s.draws := rfl
@[simp] theorem State.setVHiLo_reg (h l : Word) (r : RegNum) : (s.setVHiLo h l).reg r = s.reg r := rfl

/-! ### `State.drew` -/

@[simp] theorem State.drew_regs (n : Nat) : (s.drew n).regs = s.regs := rfl
@[simp] theorem State.drew_pc (n : Nat) : (s.drew n).pc = s.pc := rfl
@[simp] theorem State.drew_hi (n : Nat) : (s.drew n).hi = s.hi := rfl
@[simp] theorem State.drew_lo (n : Nat) : (s.drew n).lo = s.lo := rfl
@[simp] theorem State.drew_vhi (n : Nat) : (s.drew n).vhi = s.vhi := rfl
@[simp] theorem State.drew_vlo (n : Nat) : (s.drew n).vlo = s.vlo := rfl
@[simp] theorem State.drew_flags (n : Nat) : (s.drew n).flags = s.flags := rfl
@[simp] theorem State.drew_intAck (n : Nat) : (s.drew n).intAck = s.intAck := rfl
@[simp] theorem State.drew_ir (n : Nat) : (s.drew n).ir = s.ir := rfl
@[simp] theorem State.drew_imem (n : Nat) : (s.drew n).imem = s.imem := rfl
@[simp] theorem State.drew_dmem (n : Nat) : (s.drew n).dmem = s.dmem := rfl
@[simp] theorem State.drew_iomem (n : Nat) : (s.drew n).iomem = s.iomem := rfl
@[simp] theorem State.drew_ended (n : Nat) : (s.drew n).ended = s.ended := rfl
@[simp] theorem State.drew_intr (n : Nat) : (s.drew n).intr = s.intr := rfl
@[simp] theorem State.drew_hostMoves (n : Nat) : (s.drew n).hostMoves = s.hostMoves := rfl
@[simp] theorem State.drew_variant (n : Nat) : (s.drew n).variant = s.variant := rfl
@[simp] theorem State.drew_draws (n : Nat) : (s.drew n).draws = s.draws + n := rfl
@[simp] theorem State.drew_reg (n : Nat) (r : RegNum) : (s.drew n).reg r = s.reg r := rfl

/-! ### `State.setStatus` -/

@[simp] theorem State.setStatus_regs (o : StatusOut) : (s.setStatus o).regs = s.regs := rfl
@[simp] theorem State.setStatus_pc (o : StatusOut) : (s.setStatus o).pc = s.pc := rfl
@[simp] theorem State.setStatus_hi (o : StatusOut) : (s.setStatus o).hi = s.hi := rfl
@[simp] theorem State.setStatus_lo (o : StatusOut) : (s.setStatus o).lo = s.lo := rfl
@[simp] theorem State.setStatus_vhi (o : StatusOut) : (s.setStatus o).vhi = s.vhi := rfl
@[simp] theorem State.setStatus_vlo (o : StatusOut) : (s.setStatus o).vlo = s.vlo := rfl
@[simp] theorem State.setStatus_flags (o : StatusOut) : (s.setStatus o).flags = s.flags.replace o s.draws := rfl
@[simp] theorem State.setStatus_intAck (o : StatusOut) : (s.setStatus o).intAck = s.intAck := rfl
@[simp] theorem State.setStatus_ir (o : StatusOut) : (s.setStatus o).ir = s.ir := rfl
@[simp] theorem State.setStatus_imem (o : StatusOut) : (s.setStatus o).imem = s.imem := rfl
@[simp] theorem State.setStatus_dmem (o : StatusOut) : (s.setStatus o).dmem = s.dmem := rfl
@[simp] theorem State.setStatus_iomem (o : StatusOut) : (s.setStatus o).iomem = s.iomem := rfl
@[simp] theorem State.setStatus_ended (o : StatusOut) : (s.setStatus o).ended = s.ended := rfl
@[simp] theorem State.setStatus_intr (o : StatusOut) : (s.setStatus o).intr = s.intr := rfl
@[simp] theorem State.setStatus_hostMoves (o : StatusOut) : (s.setStatus o).hostMoves = s.hostMoves := rfl
@[simp] theorem State.setStatus_variant (o : StatusOut) : (s.setStatus o).variant = s.variant := rfl
@[simp] theorem State.setStatus_draws (o : StatusOut) : (s.setStatus o).draws = s.draws + statusDraws := rfl
@[simp] theorem State.setStatus_reg (o : StatusOut) (r : RegNum) : (s.setStatus o).reg r = s.reg r := rfl

/-! ### `State.setFlags` -/

@[simp] theorem State.setFlags_regs (f : Flags) : (s.setFlags f).regs = s.regs := rfl
@[simp] theorem State.setFlags_pc (f : Flags) : (s.setFlags f).pc = s.pc := rfl
@[simp] theorem State.setFlags_hi (f : Flags) : (s.setFlags f).hi = s.hi := rfl
@[simp] theorem State.setFlags_lo (f : Flags) : (s.setFlags f).lo = s.lo := rfl
@[simp] theorem State.setFlags_vhi (f : Flags) : (s.setFlags f).vhi = s.vhi := rfl
@[simp] theorem State.setFlags_vlo (f : Flags) : (s.setFlags f).vlo = s.vlo := rfl
@[simp] theorem State.setFlags_flags (f : Flags) : (s.setFlags f).flags = f := rfl
@[simp] theorem State.setFlags_intAck (f : Flags) : (s.setFlags f).intAck = s.intAck := rfl
@[simp] theorem State.setFlags_ir (f : Flags) : (s.setFlags f).ir = s.ir := rfl
@[simp] theorem State.setFlags_imem (f : Flags) : (s.setFlags f).imem = s.imem := rfl
@[simp] theorem State.setFlags_dmem (f : Flags) : (s.setFlags f).dmem = s.dmem := rfl
@[simp] theorem State.setFlags_iomem (f : Flags) : (s.setFlags f).iomem = s.iomem := rfl
@[simp] theorem State.setFlags_ended (f : Flags) : (s.setFlags f).ended = s.ended := rfl
@[simp] theorem State.setFlags_intr (f : Flags) : (s.setFlags f).intr = s.intr := rfl
@[simp] theorem State.setFlags_hostMoves (f : Flags) : (s.setFlags f).hostMoves = s.hostMoves := rfl
@[simp] theorem State.setFlags_variant (f : Flags) : (s.setFlags f).variant = s.variant := rfl
@[simp] theorem State.setFlags_draws (f : Flags) : (s.setFlags f).draws = s.draws := rfl
@[simp] theorem State.setFlags_reg (f : Flags) (r : RegNum) : (s.setFlags f).reg r = s.reg r := rfl

/-! ### `State.setIe` -/

@[simp] theorem State.setIe_regs (b : Bool) : (s.setIe b).regs = s.regs := rfl
@[simp] theorem State.setIe_pc (b : Bool) : (s.setIe b).pc = s.pc := rfl
@[simp] theorem State.setIe_hi (b : Bool) : (s.setIe b).hi = s.hi := rfl
@[simp] theorem State.setIe_lo (b : Bool) : (s.setIe b).lo = s.lo := rfl
@[simp] theorem State.setIe_vhi (b : Bool) : (s.setIe b).vhi = s.vhi := rfl
@[simp] theorem State.setIe_vlo (b : Bool) : (s.setIe b).vlo = s.vlo := rfl
@[simp] theorem State.setIe_flags (b : Bool) : (s.setIe b).flags = { s.flags with ie := b } := rfl
@[simp] theorem State.setIe_intAck (b : Bool) : (s.setIe b).intAck = s.intAck := rfl
@[simp] theorem State.setIe_ir (b : Bool) : (s.setIe b).ir = s.ir := rfl
@[simp] theorem State.setIe_imem (b : Bool) : (s.setIe b).imem = s.imem := rfl
@[simp] theorem State.setIe_dmem (b : Bool) : (s.setIe b).dmem = s.dmem := rfl
@[simp] theorem State.setIe_iomem (b : Bool) : (s.setIe b).iomem = s.iomem := rfl
@[simp] theorem State.setIe_ended (b : Bool) : (s.setIe b).ended = s.ended := rfl
@[simp] theorem State.setIe_intr (b : Bool) : (s.setIe b).intr = s.intr := rfl
@[simp] theorem State.setIe_hostMoves (b : Bool) : (s.setIe b).hostMoves = s.hostMoves := rfl
@[simp] theorem State.setIe_variant (b : Bool) : (s.setIe b).variant = s.variant := rfl
@[simp] theorem State.setIe_draws (b : Bool) : (s.setIe b).draws = s.draws := rfl
@[simp] theorem State.setIe_reg (b : Bool) (r : RegNum) : (s.setIe b).reg r = s.reg r := rfl

/-! ### `State.setIntAck` -/

@[simp] theorem State.setIntAck_regs (b : Bool) : (s.setIntAck b).regs = s.regs := rfl
@[simp] theorem State.setIntAck_pc (b : Bool) : (s.setIntAck b).pc = s.pc := rfl
@[simp] theorem State.setIntAck_hi (b : Bool) : (s.setIntAck b).hi = s.hi := rfl
@[simp] theorem State.setIntAck_lo (b : Bool) : (s.setIntAck b).lo = s.lo := rfl
@[simp] theorem State.setIntAck_vhi (b : Bool) : (s.setIntAck b).vhi = s.vhi := rfl
@[simp] theorem State.setIntAck_vlo (b : Bool) : (s.setIntAck b).vlo = s.vlo := rfl
@[simp] theorem State.setIntAck_flags (b : Bool) : (s.setIntAck b).flags = s.flags := rfl
@[simp] theorem State.setIntAck_intAck (b : Bool) : (s.setIntAck b).intAck = b := rfl
@[simp] theorem State.setIntAck_ir (b : Bool) : (s.setIntAck b).ir = s.ir := rfl
@[simp] theorem State.setIntAck_imem (b : Bool) : (s.setIntAck b).imem = s.imem := rfl
@[simp] theorem State.setIntAck_dmem (b : Bool) : (s.setIntAck b).dmem = s.dmem := rfl
@[simp] theorem State.setIntAck_iomem (b : Bool) : (s.setIntAck b).iomem = s.iomem := rfl
@[simp] theorem State.setIntAck_ended (b : Bool) : (s.setIntAck b).ended = s.ended := rfl
@[simp] theorem State.setIntAck_intr (b : Bool) : (s.setIntAck b).intr = s.intr := rfl
@[simp] theorem State.setIntAck_hostMoves (b : Bool) : (s.setIntAck b).hostMoves = s.hostMoves := rfl
@[simp] theorem State.setIntAck_variant (b : Bool) : (s.setIntAck b).variant = s.variant := rfl
@[simp] theorem State.setIntAck_draws (b : Bool) : (s.setIntAck b).draws = s.draws := rfl
@[simp] theorem State.setIntAck_reg (b : Bool) (r : RegNum) : (s.setIntAck b).reg r = s.reg r := rfl

/-! ### `State.setDmemWord` -/

@[simp] theorem State.setDmemWord_regs (a v : Word) : (s.setDmemWord a v).regs = s.regs := rfl
@[simp] theorem State.setDmemWord_pc (a v : Word) : (s.setDmemWord a v).pc = s.pc := rfl
@[simp] theorem State.setDmemWord_hi (a v : Word) : (s.setDmemWord a v).hi = s.hi := rfl
@[simp] theorem State.setDmemWord_lo (a v : Word) : (s.setDmemWord a v).lo = s.lo := rfl
@[simp] theorem State.setDmemWord_vhi (a v : Word) : (s.setDmemWord a v).vhi = s.vhi := rfl
@[simp] theorem State.setDmemWord_vlo (a v : Word) : (s.setDmemWord a v).vlo = s.vlo := rfl
@[simp] theorem State.setDmemWord_flags (a v : Word) : (s.setDmemWord a v).flags = s.flags := rfl
@[simp] theorem State.setDmemWord_intAck (a v : Word) : (s.setDmemWord a v).intAck = s.intAck := rfl
@[simp] theorem State.setDmemWord_ir (a v : Word) : (s.setDmemWord a v).ir = s.ir := rfl
@[simp] theorem State.setDmemWord_imem (a v : Word) : (s.setDmemWord a v).imem = s.imem := rfl
@[simp] theorem State.setDmemWord_dmem (a v : Word) : (s.setDmemWord a v).dmem = s.dmem.setWord (idx a) v := rfl
@[simp] theorem State.setDmemWord_iomem (a v : Word) : (s.setDmemWord a v).iomem = s.iomem := rfl
@[simp] theorem State.setDmemWord_ended (a v : Word) : (s.setDmemWord a v).ended = s.ended := rfl
@[simp] theorem State.setDmemWord_intr (a v : Word) : (s.setDmemWord a v).intr = s.intr := rfl
@[simp] theorem State.setDmemWord_hostMoves (a v : Word) : (s.setDmemWord a v).hostMoves = s.hostMoves := rfl
@[simp] theorem State.setDmemWord_variant (a v : Word) : (s.setDmemWord a v).variant = s.variant := rfl
@[simp] theorem State.setDmemWord_draws (a v : Word) : (s.setDmemWord a v).draws = s.draws := rfl
@[simp] theorem State.setDmemWord_reg (a v : Word) (r : RegNum) : (s.setDmemWord a v).reg r = s.reg r := rfl

/-! ### `State.setIomemWord` -/

@[simp] theorem State.setIomemWord_regs (a v : Word) : (s.setIomemWord a v).regs = s.regs := rfl
@[simp] theorem State.setIomemWord_pc (a v : Word) : (s.setIomemWord a v).pc = s.pc := rfl
@[simp] theorem State.setIomemWord_hi (a v : Word) : (s.setIomemWord a v).hi = s.hi := rfl
@[simp] theorem State.setIomemWord_lo (a v : Word) : (s.setIomemWord a v).lo = s.lo := rfl
@[simp] theorem State.setIomemWord_vhi (a v : Word) : (s.setIomemWord a v).vhi = s.vhi := rfl
@[simp] theorem State.setIomemWord_vlo (a v : Word) : (s.setIomemWord a v).vlo = s.vlo := rfl
@[simp] theorem State.setIomemWord_flags (a v : Word) : (s.setIomemWord a v).flags = s.flags := rfl
@[simp] theorem State.setIomemWord_intAck (a v : Word) : (s.setIomemWord a v).intAck = s.intAck := rfl
@[simp] theorem State.setIomemWord_ir (a v : Word) : (s.setIomemWord a v).ir = s.ir := rfl
@[simp] theorem State.setIomemWord_imem (a v : Word) : (s.setIomemWord a v).imem = s.imem := rfl
@[simp] theorem State.setIomemWord_dmem (a v : Word) : (s.setIomemWord a v).dmem = s.dmem := rfl
@[simp] theorem State.setIomemWord_iomem (a v : Word) : (s.setIomemWord a v).iomem = s.iomem.setWord (idx a) v := rfl
@[simp] theorem State.setIomemWord_ended (a v : Word) : (s.setIomemWord a v).ended = s.ended := rfl
@[simp] theorem State.setIomemWord_intr (a v : Word) : (s.setIomemWord a v).intr = s.intr := rfl
@[simp] theorem State.setIomemWord_hostMoves (a v : Word) : (s.setIomemWord a v).hostMoves = s.hostMoves := rfl
@[simp] theorem State.setIomemWord_variant (a v : Word) : (s.setIomemWord a v).variant = s.variant := rfl
@[simp] theorem State.setIomemWord_draws (a v : Word) : (s.setIomemWord a v).draws = s.draws := rfl
@[simp] theorem State.setIomemWord_reg (a v : Word) (r : RegNum) : (s.setIomemWord a v).reg r = s.reg r := rfl

/-! ### `State.endRun` -/

@[simp] theorem State.endRun_regs (e : RunEnd) : (s.endRun e).regs = s.regs := rfl
@[simp] theorem State.endRun_pc (e : RunEnd) : (s.endRun e).pc = s.pc := rfl
@[simp] theorem State.endRun_hi (e : RunEnd) : (s.endRun e).hi = s.hi := rfl
@[simp] theorem State.endRun_lo (e : RunEnd) : (s.endRun e).lo = s.lo := rfl
@[simp] theorem State.endRun_vhi (e : RunEnd) : (s.endRun e).vhi = s.vhi := rfl
@[simp] theorem State.endRun_vlo (e : RunEnd) : (s.endRun e).vlo = s.vlo := rfl
@[simp] theorem State.endRun_flags (e : RunEnd) : (s.endRun e).flags = s.flags := rfl
@[simp] theorem State.endRun_intAck (e : RunEnd) : (s.endRun e).intAck = s.intAck := rfl
@[simp] theorem State.endRun_ir (e : RunEnd) : (s.endRun e).ir = s.ir := rfl
@[simp] theorem State.endRun_imem (e : RunEnd) : (s.endRun e).imem = s.imem := rfl
@[simp] theorem State.endRun_dmem (e : RunEnd) : (s.endRun e).dmem = s.dmem := rfl
@[simp] theorem State.endRun_iomem (e : RunEnd) : (s.endRun e).iomem = s.iomem := rfl
@[simp] theorem State.endRun_ended (e : RunEnd) : (s.endRun e).ended = some e := rfl
@[simp] theorem State.endRun_intr (e : RunEnd) : (s.endRun e).intr = s.intr := rfl
@[simp] theorem State.endRun_hostMoves (e : RunEnd) : (s.endRun e).hostMoves = s.hostMoves := rfl
@[simp] theorem State.endRun_variant (e : RunEnd) : (s.endRun e).variant = s.variant := rfl
@[simp] theorem State.endRun_draws (e : RunEnd) : (s.endRun e).draws = s.draws := rfl
@[simp] theorem State.endRun_reg (e : RunEnd) (r : RegNum) : (s.endRun e).reg r = s.reg r := rfl

/-! ### `State.fetch` -/

@[simp] theorem State.fetch_regs : s.fetch.regs = s.regs := rfl
@[simp] theorem State.fetch_pc : s.fetch.pc = s.pc + 4 := rfl
@[simp] theorem State.fetch_hi : s.fetch.hi = s.hi := rfl
@[simp] theorem State.fetch_lo : s.fetch.lo = s.lo := rfl
@[simp] theorem State.fetch_vhi : s.fetch.vhi = s.vhi := rfl
@[simp] theorem State.fetch_vlo : s.fetch.vlo = s.vlo := rfl
@[simp] theorem State.fetch_flags : s.fetch.flags = s.flags := rfl
@[simp] theorem State.fetch_intAck : s.fetch.intAck = s.intAck := rfl
@[simp] theorem State.fetch_ir : s.fetch.ir = s.imemWord s.pc := rfl
@[simp] theorem State.fetch_imem : s.fetch.imem = s.imem := rfl
@[simp] theorem State.fetch_dmem : s.fetch.dmem = s.dmem := rfl
@[simp] theorem State.fetch_iomem : s.fetch.iomem = s.iomem := rfl
@[simp] theorem State.fetch_ended : s.fetch.ended = s.ended := rfl
@[simp] theorem State.fetch_intr : s.fetch.intr = s.intr := rfl
@[simp] theorem State.fetch_hostMoves : s.fetch.hostMoves = s.hostMoves := rfl
@[simp] theorem State.fetch_variant : s.fetch.variant = s.variant := rfl
@[simp] theorem State.fetch_draws : s.fetch.draws = s.draws + wordDraws := rfl
@[simp] theorem State.fetch_reg (r : RegNum) : s.fetch.reg r = s.reg r := rfl

/-! ### `State.atBoundary` -/

@[simp] theorem State.atBoundary_regs : s.atBoundary.regs = s.regs := rfl
@[simp] theorem State.atBoundary_pc : s.atBoundary.pc = s.pc := rfl
@[simp] theorem State.atBoundary_hi : s.atBoundary.hi = s.hi := rfl
@[simp] theorem State.atBoundary_lo : s.atBoundary.lo = s.lo := rfl
@[simp] theorem State.atBoundary_vhi : s.atBoundary.vhi = s.vhi := rfl
@[simp] theorem State.atBoundary_vlo : s.atBoundary.vlo = s.vlo := rfl
@[simp] theorem State.atBoundary_flags : s.atBoundary.flags = s.flags := rfl
@[simp] theorem State.atBoundary_intAck : s.atBoundary.intAck = s.intAck := rfl
@[simp] theorem State.atBoundary_ir : s.atBoundary.ir = s.ir := rfl
@[simp] theorem State.atBoundary_imem : s.atBoundary.imem = s.imem := rfl
@[simp] theorem State.atBoundary_dmem : s.atBoundary.dmem = s.dmem := rfl
@[simp] theorem State.atBoundary_iomem : s.atBoundary.iomem = hostWrites s.hostMove.ioWrites s.iomem := rfl
@[simp] theorem State.atBoundary_ended : s.atBoundary.ended = s.ended := rfl
@[simp] theorem State.atBoundary_intr : s.atBoundary.intr = s.hostMove.intr := rfl
@[simp] theorem State.atBoundary_hostMoves : s.atBoundary.hostMoves = s.hostMoves.tail := rfl
@[simp] theorem State.atBoundary_variant : s.atBoundary.variant = s.variant := rfl
@[simp] theorem State.atBoundary_draws : s.atBoundary.draws = s.draws := rfl
@[simp] theorem State.atBoundary_reg (r : RegNum) : s.atBoundary.reg r = s.reg r := rfl

/-! ### `State.setReg` -/

@[simp] theorem State.setReg_pc (d : RegNum) (v : Word) : (s.setReg d v).pc = s.pc := by
  unfold State.setReg; split <;> rfl
@[simp] theorem State.setReg_hi (d : RegNum) (v : Word) : (s.setReg d v).hi = s.hi := by
  unfold State.setReg; split <;> rfl
@[simp] theorem State.setReg_lo (d : RegNum) (v : Word) : (s.setReg d v).lo = s.lo := by
  unfold State.setReg; split <;> rfl
@[simp] theorem State.setReg_vhi (d : RegNum) (v : Word) : (s.setReg d v).vhi = s.vhi := by
  unfold State.setReg; split <;> rfl
@[simp] theorem State.setReg_vlo (d : RegNum) (v : Word) : (s.setReg d v).vlo = s.vlo := by
  unfold State.setReg; split <;> rfl
@[simp] theorem State.setReg_flags (d : RegNum) (v : Word) : (s.setReg d v).flags = s.flags := by
  unfold State.setReg; split <;> rfl
@[simp] theorem State.setReg_intAck (d : RegNum) (v : Word) : (s.setReg d v).intAck = s.intAck := by
  unfold State.setReg; split <;> rfl
@[simp] theorem State.setReg_ir (d : RegNum) (v : Word) : (s.setReg d v).ir = s.ir := by
  unfold State.setReg; split <;> rfl
@[simp] theorem State.setReg_imem (d : RegNum) (v : Word) : (s.setReg d v).imem = s.imem := by
  unfold State.setReg; split <;> rfl
@[simp] theorem State.setReg_dmem (d : RegNum) (v : Word) : (s.setReg d v).dmem = s.dmem := by
  unfold State.setReg; split <;> rfl
@[simp] theorem State.setReg_iomem (d : RegNum) (v : Word) : (s.setReg d v).iomem = s.iomem := by
  unfold State.setReg; split <;> rfl
@[simp] theorem State.setReg_ended (d : RegNum) (v : Word) : (s.setReg d v).ended = s.ended := by
  unfold State.setReg; split <;> rfl
@[simp] theorem State.setReg_intr (d : RegNum) (v : Word) : (s.setReg d v).intr = s.intr := by
  unfold State.setReg; split <;> rfl
@[simp] theorem State.setReg_hostMoves (d : RegNum) (v : Word) : (s.setReg d v).hostMoves = s.hostMoves := by
  unfold State.setReg; split <;> rfl
@[simp] theorem State.setReg_variant (d : RegNum) (v : Word) : (s.setReg d v).variant = s.variant := by
  unfold State.setReg; split <;> rfl
@[simp] theorem State.setReg_draws (d : RegNum) (v : Word) : (s.setReg d v).draws = s.draws := by
  unfold State.setReg; split <;> rfl

/-- Register 0 reads 0 (R21). -/
@[simp] theorem State.reg_zero : s.reg 0 = 0 := rfl

/-- A write to register 0 is discarded (R21). -/
theorem State.setReg_zero (v : Word) : s.setReg 0 v = s := rfl

/-- Another register's write stores the value. -/
theorem State.setReg_of_ne {d : RegNum} (v : Word) (h : d ≠ 0) :
    s.setReg d v = { s with regs := s.regs.set d.toNat v d.isLt } := if_neg h

/-- Another register reads what it holds. -/
theorem State.reg_of_ne {r : RegNum} (h : r ≠ 0) : s.reg r = s.regs[r.toNat]'r.isLt := if_neg h

/-- What a register reads after a write: the written value, 0 for register 0, the old value elsewhere. -/
theorem State.setReg_reg (d r : RegNum) (v : Word) :
    (s.setReg d v).reg r = if r = d then (if d = 0 then 0 else v) else s.reg r := by
  by_cases hd : d = 0
  · subst hd
    rw [State.setReg_zero]
    split
    · next h => subst h; rfl
    · rfl
  · by_cases h0 : r = 0
    · subst h0
      rw [if_neg (Ne.symm hd)]; rfl
    · rw [State.setReg_of_ne s v hd, State.reg_of_ne _ h0, State.reg_of_ne s h0, if_neg hd]
      simp only [Vector.getElem_set, BitVec.toNat_inj, eq_comm]

/-- The written register reads the value, register 0 reads 0. -/
@[simp] theorem State.setReg_reg_same (d : RegNum) (v : Word) :
    (s.setReg d v).reg d = if d = 0 then 0 else v := by
  simp [State.setReg_reg]

/-- Every other register reads as before. -/
theorem State.setReg_reg_other {d r : RegNum} (v : Word) (h : r ≠ d) : (s.setReg d v).reg r = s.reg r := by
  simp [State.setReg_reg, h]

/-- A register write does what `WroteReg` says. -/
theorem State.setReg_wroteReg (d : RegNum) (v : Word) : WroteReg d v s (s.setReg d v) :=
  ⟨State.setReg_reg_same s d v, fun _ h => State.setReg_reg_other s v h⟩

/-- The stored register 0 is never changed by a write. -/
theorem State.setReg_regs_zero (d : RegNum) (v : Word) : (s.setReg d v).regs[0] = s.regs[0] := by
  by_cases hd : d = 0
  · rw [hd, State.setReg_zero]
  · have hne : d.toNat ≠ 0 := fun h => hd (BitVec.eq_of_toNat_eq h)
    rw [State.setReg_of_ne s v hd]
    simp only [Vector.getElem_set, hne, if_false]

/-! ### `State.branchIf` -/

@[simp] theorem State.branchIf_regs (b : Bool) (off : Int) : (s.branchIf b off).regs = s.regs := by
  cases b <;> rfl
@[simp] theorem State.branchIf_hi (b : Bool) (off : Int) : (s.branchIf b off).hi = s.hi := by
  cases b <;> rfl
@[simp] theorem State.branchIf_lo (b : Bool) (off : Int) : (s.branchIf b off).lo = s.lo := by
  cases b <;> rfl
@[simp] theorem State.branchIf_vhi (b : Bool) (off : Int) : (s.branchIf b off).vhi = s.vhi := by
  cases b <;> rfl
@[simp] theorem State.branchIf_vlo (b : Bool) (off : Int) : (s.branchIf b off).vlo = s.vlo := by
  cases b <;> rfl
@[simp] theorem State.branchIf_flags (b : Bool) (off : Int) : (s.branchIf b off).flags = s.flags := by
  cases b <;> rfl
@[simp] theorem State.branchIf_intAck (b : Bool) (off : Int) : (s.branchIf b off).intAck = s.intAck := by
  cases b <;> rfl
@[simp] theorem State.branchIf_ir (b : Bool) (off : Int) : (s.branchIf b off).ir = s.ir := by
  cases b <;> rfl
@[simp] theorem State.branchIf_imem (b : Bool) (off : Int) : (s.branchIf b off).imem = s.imem := by
  cases b <;> rfl
@[simp] theorem State.branchIf_dmem (b : Bool) (off : Int) : (s.branchIf b off).dmem = s.dmem := by
  cases b <;> rfl
@[simp] theorem State.branchIf_iomem (b : Bool) (off : Int) : (s.branchIf b off).iomem = s.iomem := by
  cases b <;> rfl
@[simp] theorem State.branchIf_ended (b : Bool) (off : Int) : (s.branchIf b off).ended = s.ended := by
  cases b <;> rfl
@[simp] theorem State.branchIf_intr (b : Bool) (off : Int) : (s.branchIf b off).intr = s.intr := by
  cases b <;> rfl
@[simp] theorem State.branchIf_hostMoves (b : Bool) (off : Int) : (s.branchIf b off).hostMoves = s.hostMoves := by
  cases b <;> rfl
@[simp] theorem State.branchIf_variant (b : Bool) (off : Int) : (s.branchIf b off).variant = s.variant := by
  cases b <;> rfl
@[simp] theorem State.branchIf_draws (b : Bool) (off : Int) : (s.branchIf b off).draws = s.draws := by
  cases b <;> rfl
@[simp] theorem State.branchIf_reg (b : Bool) (off : Int) (r : RegNum) : (s.branchIf b off).reg r = s.reg r := by
  cases b <;> rfl
@[simp] theorem State.branchIf_pc (b : Bool) (off : Int) :
    (s.branchIf b off).pc = if b then branchTarget s.pc off else s.pc := by
  cases b <;> rfl

/-! ### Flags -/

@[simp] theorem Flags.replace_ie (f : Flags) (o : StatusOut) (k : Nat) : (f.replace o k).ie = f.ie := rfl
@[simp] theorem Flags.replace_dbz (f : Flags) (o : StatusOut) (k : Nat) :
    (f.replace o k).dbz = drivenBit o.dbz k := rfl
@[simp] theorem Flags.replace_c (f : Flags) (o : StatusOut) (k : Nat) :
    (f.replace o k).c = drivenBit o.c (k + 1) := rfl
@[simp] theorem Flags.replace_v (f : Flags) (o : StatusOut) (k : Nat) :
    (f.replace o k).v = drivenBit o.v (k + 2) := rfl
@[simp] theorem Flags.replace_n (f : Flags) (o : StatusOut) (k : Nat) :
    (f.replace o k).n = drivenBit o.n (k + 3) := rfl
@[simp] theorem Flags.replace_z (f : Flags) (o : StatusOut) (k : Nat) :
    (f.replace o k).z = drivenBit o.z (k + 4) := rfl

/-- A flag the ALU drives has that value. -/
@[simp] theorem drivenBit_some (b : Bool) (k : Nat) : drivenBit (some b) k = b := rfl

end Sys2Proof.Machine
end

