-- ==== Sys2Proof/Laws/Decode.lean ====
section
/-! SUPPORT. The fields of an encoded word (30 R81 to R84): each field of a word put together from its fields is that
field; and what the fields' conversions give back. -/

namespace Sys2Proof

/-! ### R-Type words -/

@[simp] theorem opField_rWord (rs rt rd shamt : BitVec 5) (funct : BitVec 6) :
    opField (rWord rs rt rd shamt funct) = 0x00 := by
  ext i hi; simp [opField, rWord]; grind
@[simp] theorem rsField_rWord (rs rt rd shamt : BitVec 5) (funct : BitVec 6) :
    rsField (rWord rs rt rd shamt funct) = rs := by
  ext i hi; simp [rsField, rWord]; grind
@[simp] theorem rtField_rWord (rs rt rd shamt : BitVec 5) (funct : BitVec 6) :
    rtField (rWord rs rt rd shamt funct) = rt := by
  ext i hi; simp [rtField, rWord]; grind
@[simp] theorem rdField_rWord (rs rt rd shamt : BitVec 5) (funct : BitVec 6) :
    rdField (rWord rs rt rd shamt funct) = rd := by
  ext i hi; simp [rdField, rWord]; grind
@[simp] theorem functField_rWord (rs rt rd shamt : BitVec 5) (funct : BitVec 6) :
    functField (rWord rs rt rd shamt funct) = funct := by
  ext i hi; simp [functField, rWord]; grind
@[simp] theorem shamtField_rWord (rs rt rd shamt : BitVec 5) (funct : BitVec 6) :
    shamtField (rWord rs rt rd shamt funct) = shamt.toNat := by
  have h : (rWord rs rt rd shamt funct).extractLsb' 6 5 = shamt := by ext i hi; simp [rWord]; grind
  rw [shamtField, h]

/-! ### I-Type words -/

@[simp] theorem opField_iWord (op : BitVec 6) (rs rt : RegNum) (imm : BitVec 16) :
    opField (iWord op rs rt imm) = op := by
  ext i hi; simp [opField, iWord]; grind
@[simp] theorem rsField_iWord (op : BitVec 6) (rs rt : RegNum) (imm : BitVec 16) :
    rsField (iWord op rs rt imm) = rs := by
  ext i hi; simp [rsField, iWord]; grind
@[simp] theorem rtField_iWord (op : BitVec 6) (rs rt : RegNum) (imm : BitVec 16) :
    rtField (iWord op rs rt imm) = rt := by
  ext i hi; simp [rtField, iWord]; grind
@[simp] theorem immField_iWord (op : BitVec 6) (rs rt : RegNum) (imm : BitVec 16) :
    immField (iWord op rs rt imm) = imm := by
  ext i hi; simp [immField, iWord]; grind
@[simp] theorem offField_iWord (op : BitVec 6) (rs rt : RegNum) (imm : BitVec 16) :
    offField (iWord op rs rt imm) = imm.toInt := by
  have h : offField (iWord op rs rt imm) = (immField (iWord op rs rt imm)).toInt := rfl
  rw [h, immField_iWord]

/-! ### J-Type words -/

@[simp] theorem opField_jWord (op : BitVec 6) (addr : BitVec 26) :
    opField (jWord op addr) = op := by
  ext i hi; simp [opField, jWord]; grind
@[simp] theorem addrField_jWord (op : BitVec 6) (addr : BitVec 26) :
    addrField (jWord op addr) = addr := by
  ext i hi; simp [addrField, jWord]; grind

/-! ### V-Type words -/

@[simp] theorem opField_vWord (rs rt rd vfs : BitVec 5) (msel : BitVec 2) :
    opField (vWord rs rt rd vfs msel) = 0x1F := by
  ext i hi; simp [opField, vWord]; grind
@[simp] theorem rsField_vWord (rs rt rd vfs : BitVec 5) (msel : BitVec 2) :
    rsField (vWord rs rt rd vfs msel) = rs := by
  ext i hi; simp [rsField, vWord]; grind
@[simp] theorem rtField_vWord (rs rt rd vfs : BitVec 5) (msel : BitVec 2) :
    rtField (vWord rs rt rd vfs msel) = rt := by
  ext i hi; simp [rtField, vWord]; grind
@[simp] theorem rdField_vWord (rs rt rd vfs : BitVec 5) (msel : BitVec 2) :
    rdField (vWord rs rt rd vfs msel) = rd := by
  ext i hi; simp [rdField, vWord]; grind
@[simp] theorem vfsField_vWord (rs rt rd vfs : BitVec 5) (msel : BitVec 2) :
    vfsField (vWord rs rt rd vfs msel) = vfs := by
  ext i hi; simp [vfsField, vWord]; grind
@[simp] theorem mselField_vWord (rs rt rd vfs : BitVec 5) (msel : BitVec 2) :
    mselField (vWord rs rt rd vfs msel) = msel := by
  ext i hi; simp [mselField, vWord]; grind

/-! ### Shift amounts and branch offsets -/

/-- A shift amount that fits its field is read back (R81). -/
theorem shamtBits_toNat {shamt : Nat} (h : shamtFits shamt = true) : (shamtBits shamt).toNat = shamt := by
  simp only [shamtFits, decide_eq_true_eq] at h
  simp [shamtBits, Nat.mod_eq_of_lt h]

/-- A branch offset that fits its field is read back (R92). -/
theorem offBits_toInt {off : Int} (h : offsetFits off = true) : (offBits off).toInt = off := by
  simp only [offsetFits, Bool.and_eq_true, decide_eq_true_eq] at h
  rw [offBits, BitVec.toInt_ofInt, Int.bmod_eq_of_le] <;> omega

/-- The five bits of a word's shift amount are a shift amount. -/
theorem shamtFits_shamtField (w : Word) : shamtFits (shamtField w) = true := by
  exact decide_eq_true (w.extractLsb' 6 5).isLt

/-- The sixteen bits of a branch's offset are a branch offset. -/
theorem offsetFits_offField (w : Word) : offsetFits (offField w) = true := by
  have h1 := BitVec.le_toInt (w.extractLsb' 0 16)
  have h2 := BitVec.toInt_lt (x := w.extractLsb' 0 16)
  exact Bool.and_eq_true_iff.2 ⟨decide_eq_true h1, decide_eq_true (Int.le_of_lt_add_one h2)⟩

/-! ### Bytes -/

/-- A word laid out in bytes and read back is the word (R53). -/
@[simp] theorem wordOfBytes_wordByte (w : Word) :
    wordOfBytes (wordByte w 0) (wordByte w 1) (wordByte w 2) (wordByte w 3) = w := by
  ext i hi; simp [wordOfBytes, wordByte]; grind

/-- Decoding a word's four bytes is decoding the word (R80). -/
theorem decode_bytesOfWord (w : Word) (rest : List Byte) :
    decode (bytesOfWord w ++ rest) =
      match decodeWord w with
      | .ok i => .ok (i, rest)
      | .error e => .error e := by
  cases h : decodeWord w <;> simp [bytesOfWord, decode, h]

end Sys2Proof
end

