-- ==== Sys2Proof/Laws/Memory.lean ====
section
/-! SUPPORT. The laws of the memories: read after write, writes leave every other byte alone, and every operation
keeps the canonical form (20 R51 to R60). -/

namespace Sys2Proof.Machine

/-! ### Cells -/

theorem lookupCell_insertCell (cells : List Host.Cell) (i a : Nat) (b : Byte) :
    lookupCell (insertCell cells i b) a = if a = i then some b else lookupCell cells a := by
  induction cells with
  | nil => simp [insertCell, lookupCell, eq_comm]
  | cons c rest ih =>
    obtain ⟨k, d⟩ := c
    simp only [insertCell]
    split
    · simp [lookupCell, eq_comm]
    · split
      · rename_i h; subst h
        by_cases ha : a = i
        · simp [lookupCell, ha]
        · simp [lookupCell, ha, Ne.symm ha]
      · rename_i h1 h2
        by_cases ha : a = i
        · subst ha; simp [lookupCell, ih, Ne.symm h2]
        · simp [lookupCell, ih, ha]

theorem mem_insertCell {cells : List Host.Cell} {i : Nat} {b : Byte} {c : Host.Cell} :
    c ∈ insertCell cells i b → c = (i, b) ∨ c ∈ cells := by
  induction cells with
  | nil => simp [insertCell]
  | cons d rest ih =>
    obtain ⟨k, e⟩ := d
    simp only [insertCell]
    split
    · simp
    · split
      · simp only [List.mem_cons]; tauto
      · simp only [List.mem_cons]; tauto

theorem insertCell_rising {cells : List Host.Cell} (i : Nat) (b : Byte)
    (h : cells.Pairwise (fun a b => a.1 < b.1)) : (insertCell cells i b).Pairwise (fun a b => a.1 < b.1) := by
  induction cells with
  | nil => simp [insertCell]
  | cons d rest ih =>
    obtain ⟨k, e⟩ := d
    rw [List.pairwise_cons] at h
    obtain ⟨hk, hrest⟩ := h
    simp only [insertCell]
    split
    · rename_i hik
      rw [List.pairwise_cons]
      refine ⟨?_, List.pairwise_cons.2 ⟨hk, hrest⟩⟩
      intro c hc
      rcases List.mem_cons.1 hc with rfl | hc
      · exact hik
      · exact lt_trans hik (hk c hc)
    · split
      · rename_i hik; subst hik
        exact List.pairwise_cons.2 ⟨hk, hrest⟩
      · rename_i h1 h2
        refine List.pairwise_cons.2 ⟨?_, ih hrest⟩
        intro c hc
        rcases mem_insertCell hc with rfl | hc
        · show k < i
          omega
        · exact hk c hc

/-! ### Bytes -/

/-- A byte written is the byte read; every other byte reads as before. -/
theorem Memory.byte?_set (m : Memory) (i a : Nat) (b : Byte) :
    (m.set i b).byte? a = if a = i then some b else m.byte? a :=
  lookupCell_insertCell m.cells i a b

@[simp] theorem Memory.byte?_set_same (m : Memory) (i : Nat) (b : Byte) : (m.set i b).byte? i = some b := by
  simp [Memory.byte?_set]

theorem Memory.byte?_set_other (m : Memory) {i a : Nat} (b : Byte) (h : a ≠ i) :
    (m.set i b).byte? a = m.byte? a := by
  simp [Memory.byte?_set, h]

/-- Writing a byte that can be reached keeps the canonical form. -/
theorem Memory.set_wf {m : Memory} {i : Nat} (b : Byte) (h : m.wf) (hi : i < memBytes) : (m.set i b).wf := by
  refine ⟨insertCell_rising i b h.1, ?_⟩
  intro c hc
  rcases mem_insertCell hc with rfl | hc
  · exact hi
  · exact h.2 c hc

/-- The empty memory is in canonical form. -/
theorem Memory.empty_wf : (⟨[]⟩ : Memory).wf := by simp [Memory.wf]

/-- The memories of the reset state are in canonical form. -/
theorem State.reset_memories_wf : State.reset.imem.wf ∧ State.reset.dmem.wf ∧ State.reset.iomem.wf :=
  ⟨Memory.empty_wf, Memory.empty_wf, Memory.empty_wf⟩

/-! ### Addresses -/

/-- The index of an address is its value modulo 4096 (R52). -/
theorem idx_eq_mod (a : Word) : idx a = a.toNat % 4096 := by
  simp [idx, BitVec.extractLsb'_toNat]

theorem idx_lt (a : Word) : idx a < 4096 := by
  rw [idx_eq_mod]; exact Nat.mod_lt _ (by decide)

/-! ### Words -/

/-- A word written puts its four bytes at the index and leaves every other byte alone (R57). -/
theorem Memory.byte?_setWord (m : Memory) (i a : Nat) (v : Word) :
    (m.setWord i v).byte? a =
      if a = i then some (wordByte v 0) else if a = i + 1 then some (wordByte v 1)
      else if a = i + 2 then some (wordByte v 2) else if a = i + 3 then some (wordByte v 3) else m.byte? a := by
  simp only [Memory.setWord, Memory.byte?_set]
  split_ifs <;> first | rfl | omega

/-- After a word is written, memory holds it (R53). -/
theorem Memory.setWord_holdsWord (m : Memory) (i : Nat) (v : Word) : HoldsWord (m.setWord i v) i v := by
  intro j
  fin_cases j <;> simp [Memory.byte?_setWord]

/-- A word write changes no byte outside its four (R57). -/
theorem Memory.setWord_sameBytesOutside (m : Memory) (i : Nat) (v : Word) :
    SameBytesOutside i m (m.setWord i v) := by
  intro a h
  rw [Memory.byte?_setWord, if_neg, if_neg, if_neg, if_neg] <;> omega

/-- Writing a word through a 12-bit index keeps the canonical form (R60). -/
theorem Memory.setWord_wf {m : Memory} {i : Nat} (v : Word) (h : m.wf) (hi : i < 4096) : (m.setWord i v).wf := by
  have e : memBytes = 4099 := rfl
  exact Memory.set_wf _ (Memory.set_wf _ (Memory.set_wf _ (Memory.set_wf _ h (by omega)) (by omega)) (by omega))
    (by omega)

/-- The bytes of a word assembled from four bytes are those four (R53). -/
@[simp] theorem wordByte_wordOfBytes (b0 b1 b2 b3 : Byte) (j : Fin 4) :
    wordByte (wordOfBytes b0 b1 b2 b3) j = match j with | 0 => b0 | 1 => b1 | 2 => b2 | 3 => b3 := by
  fin_cases j <;> (ext k hk; simp [wordByte, wordOfBytes]; grind)

/-- Two words with the same four bytes are equal. -/
theorem word_ext {v w : Word} (h : ∀ j, wordByte v j = wordByte w j) : v = w := by
  apply BitVec.eq_of_getLsbD_eq
  intro k hk
  have e0 := congrArg (fun b : Byte => b.getLsbD (k - 24)) (h 0)
  have e1 := congrArg (fun b : Byte => b.getLsbD (k - 16)) (h 1)
  have e2 := congrArg (fun b : Byte => b.getLsbD (k - 8)) (h 2)
  have e3 := congrArg (fun b : Byte => b.getLsbD k) (h 3)
  simp only [wordByte, BitVec.getLsbD_extractLsb'] at e0 e1 e2 e3
  by_cases h3 : k < 8
  · simpa [h3] using e3
  · by_cases h2 : k < 16
    · have : 8 + (k - 8) = k := by omega
      have : k - 8 < 8 := by omega
      simp_all
    · by_cases h1 : k < 24
      · have : 16 + (k - 16) = k := by omega
        have : k - 16 < 8 := by omega
        simp_all
      · have : 24 + (k - 24) = k := by omega
        have : k - 24 < 8 := by omega
        simp_all

/-- A word read gives a value the four bytes allow (R56). -/
theorem Memory.wordAt_readsWord (m : Memory) (i k : Nat) : ReadsWord m i (m.wordAt i k) := by
  intro j b h
  fin_cases j <;> simp_all [Memory.wordAt, Memory.byteOrFree]

/-- Where memory holds a word, a read gives it, whatever the draws (R56). -/
theorem Memory.wordAt_of_holdsWord {m : Memory} {i : Nat} {w : Word} (h : HoldsWord m i w) (k : Nat) :
    m.wordAt i k = w :=
  word_ext fun j => Memory.wordAt_readsWord m i k j _ (h j)

/-- A word read where it was just written is the word written (R64). -/
@[simp] theorem Memory.wordAt_setWord_same (m : Memory) (i k : Nat) (v : Word) : (m.setWord i v).wordAt i k = v :=
  Memory.wordAt_of_holdsWord (Memory.setWord_holdsWord m i v) k

/-- The host's writes keep the canonical form (D16). -/
theorem hostWrites_wf (ws : List Host.Cell) {m : Memory} (h : m.wf) : (hostWrites ws m).wf := by
  induction ws generalizing m with
  | nil => exact h
  | cons c rest ih =>
    obtain ⟨i, b⟩ := c
    simp only [hostWrites]
    split
    · exact ih (Memory.set_wf b h ‹_›)
    · exact ih h

end Sys2Proof.Machine
end

