-- ==== Sys2Proof/Laws/Ops.lean ====
section
/-! SUPPORT. What each shared operation does, said once: taking the interrupt and returning from it (60 R265, R266),
the acknowledge latch (R264), the reset pulse (70 R300), the interrupt check (R262) and the host's move. -/

namespace Sys2Proof.Machine

variable (s : State)

/-! ### The acknowledge latch (R264) -/

@[simp] theorem State.settleAck_regs : s.settleAck.regs = s.regs := by unfold State.settleAck; split <;> rfl
@[simp] theorem State.settleAck_pc : s.settleAck.pc = s.pc := by unfold State.settleAck; split <;> rfl
@[simp] theorem State.settleAck_hi : s.settleAck.hi = s.hi := by unfold State.settleAck; split <;> rfl
@[simp] theorem State.settleAck_lo : s.settleAck.lo = s.lo := by unfold State.settleAck; split <;> rfl
@[simp] theorem State.settleAck_vhi : s.settleAck.vhi = s.vhi := by unfold State.settleAck; split <;> rfl
@[simp] theorem State.settleAck_vlo : s.settleAck.vlo = s.vlo := by unfold State.settleAck; split <;> rfl
@[simp] theorem State.settleAck_flags : s.settleAck.flags = s.flags := by unfold State.settleAck; split <;> rfl
@[simp] theorem State.settleAck_ir : s.settleAck.ir = s.ir := by unfold State.settleAck; split <;> rfl
@[simp] theorem State.settleAck_imem : s.settleAck.imem = s.imem := by unfold State.settleAck; split <;> rfl
@[simp] theorem State.settleAck_dmem : s.settleAck.dmem = s.dmem := by unfold State.settleAck; split <;> rfl
@[simp] theorem State.settleAck_iomem : s.settleAck.iomem = s.iomem := by unfold State.settleAck; split <;> rfl
@[simp] theorem State.settleAck_ended : s.settleAck.ended = s.ended := by unfold State.settleAck; split <;> rfl
@[simp] theorem State.settleAck_intr : s.settleAck.intr = s.intr := by unfold State.settleAck; split <;> rfl
@[simp] theorem State.settleAck_hostMoves : s.settleAck.hostMoves = s.hostMoves := by
  unfold State.settleAck; split <;> rfl
@[simp] theorem State.settleAck_variant : s.settleAck.variant = s.variant := by unfold State.settleAck; split <;> rfl
@[simp] theorem State.settleAck_draws : s.settleAck.draws = s.draws := by unfold State.settleAck; split <;> rfl
@[simp] theorem State.settleAck_reg (r : RegNum) : s.settleAck.reg r = s.reg r := by
  unfold State.settleAck; split <;> rfl

/-- The latch is kept exactly while the line is high (R264). -/
@[simp] theorem State.settleAck_intAck : s.settleAck.intAck = (s.intAck && s.intr) := by
  unfold State.settleAck
  split
  · next h => simp [h.1, h.2]
  · next h => cases ha : s.intAck <;> cases hi : s.intr <;> simp_all

/-! ### The interrupt check (R262) -/

/-- An interrupt is entered exactly with the latch clear, the line high and IE set (R262). -/
theorem State.boundaryAction_enter :
    s.boundaryAction = .enter ↔ s.intAck = false ∧ s.intr = true ∧ s.flags.ie = true := by
  unfold State.boundaryAction
  split_ifs <;> simp_all

/-- An instruction is fetched exactly with the line low or the latch set (R262). -/
theorem State.boundaryAction_fetch : s.boundaryAction = .fetch ↔ s.intr = false ∨ s.intAck = true := by
  unfold State.boundaryAction
  cases h1 : s.intAck <;> cases h2 : s.intr <;> cases h3 : s.flags.ie <;> simp

/-- The fetch is blocked exactly with the latch clear, the line high and IE clear (R263). -/
theorem State.boundaryAction_blocked :
    s.boundaryAction = .blocked ↔ s.intAck = false ∧ s.intr = true ∧ s.flags.ie = false := by
  unfold State.boundaryAction
  cases h1 : s.intAck <;> cases h2 : s.intr <;> cases h3 : s.flags.ie <;> simp

/-! ### Taking the interrupt (R265) -/

@[simp] theorem State.interruptEntry_hi : s.interruptEntry.hi = s.hi := by simp [State.interruptEntry]
@[simp] theorem State.interruptEntry_lo : s.interruptEntry.lo = s.lo := by simp [State.interruptEntry]
@[simp] theorem State.interruptEntry_vhi : s.interruptEntry.vhi = s.vhi := by simp [State.interruptEntry]
@[simp] theorem State.interruptEntry_vlo : s.interruptEntry.vlo = s.vlo := by simp [State.interruptEntry]
@[simp] theorem State.interruptEntry_ir : s.interruptEntry.ir = s.ir := by simp [State.interruptEntry]
@[simp] theorem State.interruptEntry_imem : s.interruptEntry.imem = s.imem := by simp [State.interruptEntry]
@[simp] theorem State.interruptEntry_iomem : s.interruptEntry.iomem = s.iomem := by simp [State.interruptEntry]
@[simp] theorem State.interruptEntry_ended : s.interruptEntry.ended = s.ended := by simp [State.interruptEntry]
@[simp] theorem State.interruptEntry_intr : s.interruptEntry.intr = s.intr := by simp [State.interruptEntry]
@[simp] theorem State.interruptEntry_hostMoves : s.interruptEntry.hostMoves = s.hostMoves := by
  simp [State.interruptEntry]
@[simp] theorem State.interruptEntry_variant : s.interruptEntry.variant = s.variant := by simp [State.interruptEntry]
@[simp] theorem State.interruptEntry_intAck : s.interruptEntry.intAck = true := by simp [State.interruptEntry]
@[simp] theorem State.interruptEntry_flags : s.interruptEntry.flags = { s.flags with ie := false } := by
  simp [State.interruptEntry]
@[simp] theorem State.interruptEntry_dmem :
    s.interruptEntry.dmem =
      (s.dmem.setWord (idx (s.reg spReg - 4)) s.pc).setWord (idx (s.reg spReg - 8)) (flagsWord s.flags) := by
  simp [State.interruptEntry]
@[simp] theorem State.interruptEntry_pc :
    s.interruptEntry.pc = s.interruptEntry.dmem.wordAt (idx vectorAddr) s.draws := by
  simp [State.interruptEntry, State.dmemWord]
theorem State.interruptEntry_reg (r : RegNum) :
    s.interruptEntry.reg r = if r = spReg then s.reg spReg - 8 else s.reg r := by
  by_cases h : r = spReg
  · subst h; simp [State.interruptEntry, spReg]
  · simp [State.interruptEntry, State.setReg_reg, h]
theorem State.interruptEntry_regs_zero : s.interruptEntry.regs[0] = s.regs[0] := by
  simp [State.interruptEntry, State.setReg_regs_zero]

/-- The two pushes of a frame never touch the same byte, wherever `$sp` points (R52, R60). -/
theorem frame_disjoint (sp : Word) :
    idx (sp - 4) + 3 < idx (sp - 8) ∨ idx (sp - 8) + 3 < idx (sp - 4) := by
  simp only [idx_eq_mod]
  have h := sp.isLt
  have h4 : (4 : Word).toNat = 4 := rfl
  have h8 : (8 : Word).toNat = 8 := rfl
  simp only [BitVec.toNat_sub, h4, h8]
  omega

/-! ### Returning from the interrupt (R212, R266) -/

@[simp] theorem State.interruptReturn_hi : s.interruptReturn.hi = s.hi := by simp [State.interruptReturn]
@[simp] theorem State.interruptReturn_lo : s.interruptReturn.lo = s.lo := by simp [State.interruptReturn]
@[simp] theorem State.interruptReturn_vhi : s.interruptReturn.vhi = s.vhi := by simp [State.interruptReturn]
@[simp] theorem State.interruptReturn_vlo : s.interruptReturn.vlo = s.vlo := by simp [State.interruptReturn]
@[simp] theorem State.interruptReturn_ir : s.interruptReturn.ir = s.ir := by simp [State.interruptReturn]
@[simp] theorem State.interruptReturn_imem : s.interruptReturn.imem = s.imem := by simp [State.interruptReturn]
@[simp] theorem State.interruptReturn_dmem : s.interruptReturn.dmem = s.dmem := by simp [State.interruptReturn]
@[simp] theorem State.interruptReturn_iomem : s.interruptReturn.iomem = s.iomem := by simp [State.interruptReturn]
@[simp] theorem State.interruptReturn_ended : s.interruptReturn.ended = s.ended := by simp [State.interruptReturn]
@[simp] theorem State.interruptReturn_intr : s.interruptReturn.intr = s.intr := by simp [State.interruptReturn]
@[simp] theorem State.interruptReturn_hostMoves : s.interruptReturn.hostMoves = s.hostMoves := by
  simp [State.interruptReturn]
@[simp] theorem State.interruptReturn_variant : s.interruptReturn.variant = s.variant := by
  simp [State.interruptReturn]
@[simp] theorem State.interruptReturn_intAck : s.interruptReturn.intAck = s.intAck := by simp [State.interruptReturn]
@[simp] theorem State.interruptReturn_draws : s.interruptReturn.draws = s.draws + wordDraws + wordDraws := by
  simp [State.interruptReturn]
@[simp] theorem State.interruptReturn_flags : s.interruptReturn.flags = flagsOfWord (s.dmemWord (s.reg spReg)) := by
  simp [State.interruptReturn]
@[simp] theorem State.interruptReturn_pc :
    s.interruptReturn.pc = s.dmem.wordAt (idx (s.reg spReg + 4)) (s.draws + wordDraws) := by
  simp [State.interruptReturn, State.dmemWord]
theorem State.interruptReturn_reg (r : RegNum) :
    s.interruptReturn.reg r = if r = spReg then s.reg spReg + 8 else s.reg r := by
  by_cases h : r = spReg
  · subst h; simp [State.interruptReturn, spReg]
  · simp [State.interruptReturn, State.setReg_reg, h]
theorem State.interruptReturn_regs_zero : s.interruptReturn.regs[0] = s.regs[0] := by
  simp [State.interruptReturn, State.setReg_regs_zero]

/-! ### The reset pulse (R300) -/

@[simp] theorem State.resetPulse_pc : s.resetPulse.pc = 0 := rfl
@[simp] theorem State.resetPulse_hi : s.resetPulse.hi = 0 := rfl
@[simp] theorem State.resetPulse_lo : s.resetPulse.lo = 0 := rfl
@[simp] theorem State.resetPulse_vhi : s.resetPulse.vhi = 0 := rfl
@[simp] theorem State.resetPulse_vlo : s.resetPulse.vlo = 0 := rfl
@[simp] theorem State.resetPulse_flags : s.resetPulse.flags = ⟨false, false, false, false, false, false⟩ := rfl
@[simp] theorem State.resetPulse_intAck : s.resetPulse.intAck = false := rfl
@[simp] theorem State.resetPulse_ir : s.resetPulse.ir = 0 := rfl
@[simp] theorem State.resetPulse_ended : s.resetPulse.ended = none := rfl
@[simp] theorem State.resetPulse_imem : s.resetPulse.imem = s.imem := rfl
@[simp] theorem State.resetPulse_dmem : s.resetPulse.dmem = s.dmem := rfl
@[simp] theorem State.resetPulse_iomem : s.resetPulse.iomem = s.iomem := rfl
@[simp] theorem State.resetPulse_intr : s.resetPulse.intr = s.intr := rfl
@[simp] theorem State.resetPulse_hostMoves : s.resetPulse.hostMoves = s.hostMoves := rfl
@[simp] theorem State.resetPulse_variant : s.resetPulse.variant = s.variant := rfl
@[simp] theorem State.resetPulse_draws : s.resetPulse.draws = s.draws := rfl
theorem State.resetPulse_regs_zero : s.resetPulse.regs[0] = 0 := by
  simp [State.resetPulse]

/-- Reset writes register 29 and no other (R300, R301). -/
theorem State.resetPulse_reg (r : RegNum) :
    s.resetPulse.reg r = if r = spReg then 0x000003FC else s.reg r := by
  by_cases h0 : r = 0
  · subst h0; rfl
  · have hn : r.toNat ≠ 0 := fun h => h0 (BitVec.eq_of_toNat_eq h)
    rw [State.reg_of_ne _ h0, State.reg_of_ne s h0]
    by_cases hs : r = spReg
    · subst hs; simp [State.resetPulse, spReg]
    · have : r.toNat ≠ 29 := fun h => hs (BitVec.eq_of_toNat_eq h)
      simp [State.resetPulse, hs, this.symm, hn.symm]

/-! ### The host's writes (D16) -/

/-- The last value a list of writes names decides, one more write coming first. -/
theorem lastNamed_cons (c : Host.Cell) (rest : List Host.Cell) (a : Nat) :
    lastNamed (c :: rest) a = (lastNamed rest a).or (if c.1 = a then some c.2 else none) := by
  simp only [lastNamed, List.reverse_cons, List.find?_append, List.find?_cons, List.find?_nil]
  by_cases h : c.1 = a
  · cases rest.reverse.find? fun c => c.1 == a <;> simp [h]
  · cases rest.reverse.find? fun c => c.1 == a <;> simp [h, beq_eq_false_iff_ne.2 h]

/-- Every byte after the host's writes, said once: the last value named for it, if it exists; else what it was
(D16, D17). -/
theorem hostWrites_byte? (ws : List Host.Cell) (m : Memory) (a : Nat) :
    (hostWrites ws m).byte? a = if a < memBytes then (lastNamed ws a).or (m.byte? a) else m.byte? a := by
  induction ws generalizing m with
  | nil => simp [hostWrites, lastNamed]
  | cons c rest ih =>
    obtain ⟨i, b⟩ := c
    rw [hostWrites, ih, lastNamed_cons]
    by_cases ha : a < memBytes
    · by_cases hi : i = a
      · subst hi; simp [ha]
      · have : (if i < memBytes then m.set i b else m).byte? a = m.byte? a := by
          split
          · exact Memory.byte?_set_other m b (Ne.symm hi)
          · rfl
        simp [ha, hi, this]
    · have : (if i < memBytes then m.set i b else m).byte? a = m.byte? a := by
        split
        · exact Memory.byte?_set_other m b (by omega)
        · rfl
      simp [ha, this]

/-- A byte that no host write names is as before. -/
theorem hostWrites_byte?_other (ws : List Host.Cell) (m : Memory) (a : Nat) (h : ∀ c ∈ ws, c.1 ≠ a) :
    (hostWrites ws m).byte? a = m.byte? a := by
  have hn : lastNamed ws a = none := by
    rw [lastNamed, Option.map_eq_none_iff, List.find?_eq_none]
    intro c hc
    simpa using h c (List.mem_reverse.1 hc)
  simp [hostWrites_byte?, hn]

/-- A byte that does not exist is never written. -/
theorem hostWrites_byte?_unreachable (ws : List Host.Cell) (m : Memory) (a : Nat) (h : memBytes ≤ a) :
    (hostWrites ws m).byte? a = m.byte? a := by
  rw [hostWrites_byte?, if_neg (by omega)]

/-! ### The machine with its parameters given (R6, R69) -/

/-- A loaded memory holds its image and nothing else (R69). -/
theorem loadImage_byte? (image : List Host.Cell) (a : Nat) :
    (loadImage image).byte? a = if a < memBytes then lastNamed image a else none := by
  rw [loadImage, hostWrites_byte?]
  simp [Memory.byte?, lookupCell]

/-- A loaded memory is in canonical form. -/
theorem loadImage_wf (image : List Host.Cell) : (loadImage image).wf := hostWrites_wf image Memory.empty_wf

@[simp] theorem State.start_regs (p : Params) : (State.start p).regs = State.reset.regs := rfl
@[simp] theorem State.start_pc (p : Params) : (State.start p).pc = 0 := rfl
@[simp] theorem State.start_hi (p : Params) : (State.start p).hi = 0 := rfl
@[simp] theorem State.start_lo (p : Params) : (State.start p).lo = 0 := rfl
@[simp] theorem State.start_vhi (p : Params) : (State.start p).vhi = 0 := rfl
@[simp] theorem State.start_vlo (p : Params) : (State.start p).vlo = 0 := rfl
@[simp] theorem State.start_flags (p : Params) : (State.start p).flags = State.reset.flags := rfl
@[simp] theorem State.start_intAck (p : Params) : (State.start p).intAck = false := rfl
@[simp] theorem State.start_ir (p : Params) : (State.start p).ir = 0 := rfl
@[simp] theorem State.start_imem (p : Params) : (State.start p).imem = loadImage p.imemImage := rfl
@[simp] theorem State.start_dmem (p : Params) : (State.start p).dmem = loadImage p.dmemImage := rfl
@[simp] theorem State.start_iomem (p : Params) : (State.start p).iomem = loadImage p.iomemImage := rfl
@[simp] theorem State.start_ended (p : Params) : (State.start p).ended = none := rfl
@[simp] theorem State.start_intr (p : Params) : (State.start p).intr = false := rfl
@[simp] theorem State.start_hostMoves (p : Params) : (State.start p).hostMoves = p.intrTrace := rfl
@[simp] theorem State.start_variant (p : Params) : (State.start p).variant = p.variant := rfl
@[simp] theorem State.start_draws (p : Params) : (State.start p).draws = 0 := rfl
@[simp] theorem State.start_reg (p : Params) (r : RegNum) : (State.start p).reg r = State.reset.reg r := rfl

end Sys2Proof.Machine
end

