-- ==== Sys2Proof/Laws/Effects.lean ====
section
/-! SUPPORT. The effects that claims name, from the operations that the meanings use; and what the flag computations
say of the operands (10 R29 to R33). -/

namespace Sys2Proof.Machine

/-! ### Effects -/

/-- A status write and a register write (most of the ALU's instructions). -/
theorem aluEffect_setReg (s : State) (o : StatusOut) (rd : RegNum) (y : Word) {F : Flags → Prop}
    (h : F (s.flags.replace o s.draws)) : AluEffect rd y F s ((s.setStatus o).setReg rd y) := by
  refine ⟨⟨by simp, fun r hr => by simp [State.setReg_reg, hr]⟩, by simpa using h, by simp [SameIe], by simp, ?_⟩
  simp [SameRest, SameHiLo, SameVHiLo, SameMemories, SameImem, SameDmem, SameIomem, SameControl]

/-- As `aluEffect_setReg`, with draws for a memory read between (LW, INPUT). -/
theorem aluEffect_drew_setReg (s : State) (o : StatusOut) (n : Nat) (rd : RegNum) (y : Word) {F : Flags → Prop}
    (h : F (s.flags.replace o s.draws)) : AluEffect rd y F s (((s.setStatus o).drew n).setReg rd y) := by
  refine ⟨⟨by simp, fun r hr => by simp [State.setReg_reg, hr]⟩, by simpa using h, by simp [SameIe], by simp, ?_⟩
  simp [SameRest, SameHiLo, SameVHiLo, SameMemories, SameImem, SameDmem, SameIomem, SameControl]

/-- A register write alone. -/
theorem moveEffect_setReg (s : State) (rd : RegNum) (y : Word) : MoveEffect rd y s (s.setReg rd y) := by
  refine ⟨State.setReg_wroteReg s rd y, by simp, by simp, ?_⟩
  simp [SameRest, SameHiLo, SameVHiLo, SameMemories, SameImem, SameDmem, SameIomem, SameControl]

/-- A status write and a branch (the compare-and-branch instructions). -/
theorem branchEffect_setStatus (s : State) (o : StatusOut) (taken : Bool) (off : Int) {P : Prop}
    {F : Flags → Prop} (hp : taken = true ↔ P) (h : F (s.flags.replace o s.draws)) :
    BranchEffect P off F s ((s.setStatus o).branchIf taken off) := by
  refine ⟨fun hP => by simp [hp.2 hP, branchTarget], fun hP => ?_, by simpa using h, by simp [SameIe],
    fun r => by simp, ?_⟩
  · have : taken = false := Bool.eq_false_of_not_eq_true fun ht => hP (hp.1 ht)
    simp [this]
  · simp [SameRest, SameHiLo, SameVHiLo, SameMemories, SameImem, SameDmem, SameIomem, SameControl]

/-! ### Flags -/

/-- The top bit of a word is its sign (R9). -/
theorem msb_iff_neg {w : Nat} (y : BitVec w) : y.msb = true ↔ y.toInt < 0 := by
  rw [BitVec.msb_eq_toInt]; simp

theorem isZero_iff (y : Word) : isZero y = true ↔ y = 0 := by simp [isZero]

/-- The carry of a 33-bit sum (R29). -/
theorem carry33 (a b : Word) :
    (a.setWidth 33 + b.setWidth 33).getLsbD 32 = decide (2 ^ 32 ≤ a.toNat + b.toNat) := by
  have ha := a.isLt
  have hb := b.isLt
  rw [show (a.setWidth 33 + b.setWidth 33).getLsbD 32 = (a.setWidth 33 + b.setWidth 33).msb by
    rw [BitVec.msb_eq_getLsbD_last], BitVec.msb_eq_decide]
  simp only [BitVec.toNat_add, BitVec.toNat_setWidth]
  congr 1
  have e1 : a.toNat % 2 ^ 33 = a.toNat := Nat.mod_eq_of_lt (by omega)
  have e2 : b.toNat % 2 ^ 33 = b.toNat := Nat.mod_eq_of_lt (by omega)
  rw [e1, e2]
  have e3 : (a.toNat + b.toNat) % 2 ^ 33 = a.toNat + b.toNat := Nat.mod_eq_of_lt (by omega)
  rw [e3]

/-- The borrow of a 33-bit difference (R31). -/
theorem borrow33 (a b : Word) : (a.setWidth 33 - b.setWidth 33).getLsbD 32 = decide (a.toNat < b.toNat) := by
  have ha := a.isLt
  have hb := b.isLt
  rw [show (a.setWidth 33 - b.setWidth 33).getLsbD 32 = (a.setWidth 33 - b.setWidth 33).msb by
    rw [BitVec.msb_eq_getLsbD_last], BitVec.msb_eq_decide]
  simp only [BitVec.toNat_sub, BitVec.toNat_setWidth]
  have e1 : a.toNat % 2 ^ 33 = a.toNat := Nat.mod_eq_of_lt (by omega)
  have e2 : b.toNat % 2 ^ 33 = b.toNat := Nat.mod_eq_of_lt (by omega)
  rw [e1, e2, decide_eq_decide]
  omega

/-- `FL_ADD` says what `AddFlags` says (R29). -/
theorem flAdd_addFlags (a b : Word) (f : Flags) (k : Nat) : AddFlags a b (f.replace (flAdd a b) k) := by
  refine ⟨?_, ?_, ?_, ?_⟩
  · simp only [Flags.replace_c, flAdd, drivenBit_some, carry33, decide_eq_true_eq]
  · simp only [Flags.replace_v, flAdd, drivenBit_some]
    have h1 := BitVec.toInt_add a b
    have ha1 := BitVec.le_toInt a
    have ha2 := @BitVec.toInt_lt _ a
    have hb1 := BitVec.le_toInt b
    have hb2 := @BitVec.toInt_lt _ b
    simp only [BitVec.msb_eq_toInt, h1]
    simp only [Int.bmod] at *
    simp only [Bool.or_eq_true, Bool.and_eq_true, Bool.not_eq_true', decide_eq_true_eq, decide_eq_false_iff_not]
    norm_num at *
    omega
  · simp only [Flags.replace_n, flAdd, drivenBit_some, msb_iff_neg]
  · simp only [Flags.replace_z, flAdd, drivenBit_some, isZero_iff]

/-- `FL_ADDU` says what `AdduFlags` says (R30). -/
theorem flAddu_adduFlags (a b : Word) (f : Flags) (k : Nat) : AdduFlags a b (f.replace (flAddu a b) k) := by
  refine ⟨?_, ?_, ?_⟩
  · simp only [Flags.replace_c, flAddu, flAdd, drivenBit_some, carry33, decide_eq_true_eq]
  · simp only [Flags.replace_v, Flags.replace_c, flAddu, flAdd, drivenBit_some]
  · simp only [Flags.replace_z, flAddu, flAdd, drivenBit_some, isZero_iff]

/-- `FL_SUB` says what `SubFlags` says (R31). -/
theorem flSub_subFlags (a b : Word) (f : Flags) (k : Nat) : SubFlags a b (f.replace (flSub a b) k) := by
  refine ⟨?_, ?_, ?_, ?_⟩
  · simp only [Flags.replace_c, flSub, drivenBit_some, borrow33, decide_eq_true_eq]
  · simp only [Flags.replace_v, flSub, drivenBit_some]
    have h1 := @BitVec.toInt_sub _ a b
    have ha1 := BitVec.le_toInt a
    have ha2 := @BitVec.toInt_lt _ a
    have hb1 := BitVec.le_toInt b
    have hb2 := @BitVec.toInt_lt _ b
    simp only [BitVec.msb_eq_toInt, h1]
    simp only [Int.bmod] at *
    simp only [Bool.or_eq_true, Bool.and_eq_true, Bool.not_eq_true', decide_eq_true_eq, decide_eq_false_iff_not]
    norm_num at *
    omega
  · simp only [Flags.replace_n, flSub, drivenBit_some, msb_iff_neg]
  · simp only [Flags.replace_z, flSub, drivenBit_some, isZero_iff]
    constructor
    · intro h
      have : a = a - b + b := by simp
      rw [this, h]; simp
    · rintro rfl; simp

/-- `FL_SUBU` says what `SubuFlags` says (R32). -/
theorem flSubu_subuFlags (a b : Word) (f : Flags) (k : Nat) : SubuFlags a b (f.replace (flSubu a b) k) := by
  have h := flSub_subFlags a b f k
  refine ⟨?_, ?_, ?_⟩
  · simp only [Flags.replace_c, flSubu, flSub, drivenBit_some, borrow33, decide_eq_true_eq]
  · simp only [Flags.replace_v, Flags.replace_c, flSubu, flSub, drivenBit_some]
  · simpa only [Flags.replace_z, flSubu, flSub, drivenBit_some] using h.2.2.2

/-- `FL_LOGIC` says what `LogicFlags` says (R33). -/
theorem flLogic_logicFlags (y : Word) (f : Flags) (k : Nat) : LogicFlags y (f.replace (flLogic y) k) := by
  refine ⟨?_, ?_⟩
  · simp only [Flags.replace_n, flLogic, drivenBit_some, msb_iff_neg]
  · simp only [Flags.replace_z, flLogic, drivenBit_some, isZero_iff]

end Sys2Proof.Machine
end

