-- ==== Sys2Proof/Laws/Operands.lean ====
section
/-! SUPPORT. What the operand forms give, bit by bit or as numbers: shifts, rotation, reversals, single bits (40 R111,
R122 to R129), product, quotient and remainder (R115, R119), and vector lanes (44 R220). -/

namespace Sys2Proof.Machine

/-! ### Shifts and rotation -/

/-- SLL as a number (R125). -/
theorem shiftLeft_eq (t : Word) (n : Nat) : shiftLeft t n = BitVec.ofNat 32 (t.toNat * 2 ^ n) := by
  apply BitVec.eq_of_toNat_eq; simp [shiftLeft, Nat.shiftLeft_eq]

/-- SRL as a number (R129). -/
theorem shiftRight_eq (t : Word) (n : Nat) : shiftRight t n = BitVec.ofNat 32 (t.toNat / 2 ^ n) := by
  apply BitVec.eq_of_toNat_eq
  have h := Nat.div_le_self t.toNat (2 ^ n)
  have ht := t.isLt
  rw [shiftRight, BitVec.toNat_ushiftRight, Nat.shiftRight_eq_div_pow, BitVec.toNat_ofNat,
    Nat.mod_eq_of_lt (lt_of_le_of_lt h ht)]

/-- SRA under `rtl`: the logical shift below bit 31, the operand's bit 31 at the top (R128). -/
theorem getLsbD_shiftRightArith_rtl (t : Word) (n : Nat) {k : Nat} (hk : k < 32) :
    (shiftRightArith .rtl t n).getLsbD k = if k < 31 then t.getLsbD (n + k) else t.msb := by
  rw [show (shiftRightArith .rtl t n).getLsbD k =
    (BitVec.ofBool t.msb ++ (t >>> n).extractLsb' 0 31 : BitVec (1 + 31)).getLsbD k from rfl, BitVec.getLsbD_append]
  split
  · next h => simp [h]
  · next h => simp [show k = 31 by omega]

theorem msb_shiftRightArith_rtl (t : Word) (n : Nat) : (shiftRightArith .rtl t n).msb = t.msb := by
  rw [BitVec.msb_eq_getLsbD_last, getLsbD_shiftRightArith_rtl t n (by decide)]; simp

/-- The two readings of SRA agree by 0 or 1 place and for a value that is not negative (R128). -/
theorem shiftRightArith_rtl_eq_isa {t : Word} {n : Nat} (h : n ≤ 1 ∨ t.msb = false) :
    shiftRightArith .rtl t n = shiftRightArith .isa t n := by
  apply BitVec.eq_of_getLsbD_eq
  intro k hk
  rw [getLsbD_shiftRightArith_rtl t n hk]
  simp only [shiftRightArith, BitVec.getLsbD_sshiftRight]
  have h32 : ¬ 32 ≤ k := by omega
  simp only [h32, decide_false, Bool.not_false, Bool.true_and]
  by_cases h1 : k < 31
  · simp only [h1, if_true]
    by_cases h2 : n + k < 32
    · simp [h2]
    · rcases h with h | h
      · omega
      · simp [h2, h, BitVec.getLsbD_of_ge t (n + k) (by omega)]
  · have hk31 : k = 31 := by omega
    subst hk31
    by_cases h2 : n = 0
    · subst h2; simp [BitVec.msb_eq_getLsbD_last]
    · simp [show ¬ n + 31 < 32 by omega]

/-- RR, bit by bit (R124). -/
theorem getLsbD_rotateRight (t : Word) {n k : Nat} (hn : n < 32) (hk : k < 32) :
    (rotateRight t n).getLsbD k = t.getLsbD ((k + n) % 32) := by
  rw [rotateRight]
  split_ifs with h
  · subst h; simp [Nat.mod_eq_of_lt hk]
  · simp only [BitVec.getLsbD_or, BitVec.getLsbD_ushiftRight, BitVec.getLsbD_shiftLeft]
    by_cases h1 : k + n < 32
    · rw [Nat.mod_eq_of_lt h1]
      simp [show k < 32 - n by omega, Nat.add_comm]
    · simp [show (k + n) % 32 = k + n - 32 by omega, show ¬ k < 32 - n by omega, hk,
        show k - (32 - n) = k + n - 32 by omega, BitVec.getLsbD_of_ge t (n + k) (by omega)]

/-! ### Reversals and single bits -/

/-- RB, bit by bit (R122). -/
theorem getLsbD_reverseBits (a : Word) {k : Nat} (hk : k < 32) : (reverseBits a).getLsbD k = a.getLsbD (31 - k) := by
  rw [reverseBits, BitVec.getLsbD_reverse, BitVec.getMsbD]
  simp [hk]

theorem reverseBits_reverseBits (a : Word) : reverseBits (reverseBits a) = a := by
  apply BitVec.eq_of_getLsbD_eq
  intro k hk
  rw [getLsbD_reverseBits _ hk, getLsbD_reverseBits _ (by omega)]
  congr 1; omega

/-- RBO, byte by byte (R123). -/
theorem wordByte_reverseBytes (a : Word) (j : Fin 4) : wordByte (reverseBytes a) j = wordByte a j.rev := by
  have h : reverseBytes a = wordOfBytes (wordByte a 3) (wordByte a 2) (wordByte a 1) (wordByte a 0) := rfl
  rw [h, wordByte_wordOfBytes]
  fin_cases j <;> rfl

theorem reverseBytes_reverseBytes (a : Word) : reverseBytes (reverseBytes a) = a :=
  word_ext fun j => by rw [wordByte_reverseBytes, wordByte_reverseBytes, Fin.rev_rev]

/-- BSI, bit by bit (R171). -/
theorem getLsbD_setBit (a : Word) (n : Nat) {k : Nat} (hk : k < 32) :
    (setBit a n).getLsbD k = if k = n then true else a.getLsbD k := by
  rw [setBit]
  split_ifs with h1 h2 h2
  · subst h2; simp [hk]
  · simp [hk]; omega
  · omega
  · rfl

/-- BCI, bit by bit (R164). -/
theorem getLsbD_clearBit (a : Word) (n : Nat) {k : Nat} (hk : k < 32) :
    (clearBit a n).getLsbD k = if k = n then false else a.getLsbD k := by
  rw [clearBit]
  split_ifs with h1 h2 h2
  · subst h2; simp [hk]
  · simp [hk]; omega
  · omega
  · rfl

/-- The bit index of an immediate is its value modulo 64 (R85). -/
theorem bitIndex_eq (imm : BitVec 16) : bitIndex imm = imm.toNat % 64 := by
  simp [bitIndex, BitVec.extractLsb'_toNat]

/-! ### Products and quotients -/

/-- The product as an integer: it always fits (R119). -/
theorem product_toInt (a b : Word) : (product a b).toInt = a.toInt * b.toInt := by
  have ha1 := BitVec.le_toInt a
  have ha2 := @BitVec.toInt_lt _ a
  have hb1 := BitVec.le_toInt b
  have hb2 := @BitVec.toInt_lt _ b
  rw [product, BitVec.toInt_ofInt]
  generalize a.toInt = x at *
  generalize b.toInt = y at *
  norm_num at *
  rw [Int.bmod_eq_of_le] <;> norm_num <;> nlinarith

/-- A 64-bit value is its two halves. -/
theorem hi_append_lo (p : BitVec 64) : p.extractLsb' 32 32 ++ p.extractLsb' 0 32 = p := by
  ext k hk; simp; grind

/-- The remainder as an integer (R115). -/
theorem remainder_toInt (a b : Word) : (remainder a b).toInt = a.toInt.tmod b.toInt := by
  rw [remainder, ← BitVec.toInt_srem, BitVec.ofInt_toInt]

/-- The quotient as an integer, where it fits (R115). -/
theorem quotient_toInt {a b : Word} (h : a ≠ 0x80000000 ∨ b ≠ 0xFFFFFFFF) :
    (quotient a b).toInt = a.toInt.tdiv b.toInt := by
  rw [quotient, BitVec.toInt_ofInt, ← BitVec.toInt_sdiv]
  exact BitVec.toInt_sdiv_of_ne_or_ne a b h

/-! ### Lanes (R220) -/

/-- The bytes of four bytes put together. -/
theorem lane8_append (b3 b2 b1 b0 : Byte) :
    lane8 (b3 ++ b2 ++ b1 ++ b0) 0 = b0 ∧ lane8 (b3 ++ b2 ++ b1 ++ b0) 1 = b1 ∧
    lane8 (b3 ++ b2 ++ b1 ++ b0) 2 = b2 ∧ lane8 (b3 ++ b2 ++ b1 ++ b0) 3 = b3 :=
  ⟨wordByte_wordOfBytes b3 b2 b1 b0 3, wordByte_wordOfBytes b3 b2 b1 b0 2, wordByte_wordOfBytes b3 b2 b1 b0 1,
    wordByte_wordOfBytes b3 b2 b1 b0 0⟩

/-- The halfwords of two halfwords put together. -/
theorem lane16_append (h1 h0 : Half) : lane16 (h1 ++ h0) 0 = h0 ∧ lane16 (h1 ++ h0) 1 = h1 := by
  constructor <;> (ext k hk; simp [lane16]; try grind)

/-- Each byte of `lanes_8` is the function of the operands' bytes (R220). -/
theorem lane8_lanes8 (f : Byte → Byte → Byte) (s t : Word) {k : Nat} (hk : k < 4) :
    lane8 (lanes8 f s t) k = f (lane8 s k) (lane8 t k) := by
  have h := lane8_append (f (lane8 s 3) (lane8 t 3)) (f (lane8 s 2) (lane8 t 2)) (f (lane8 s 1) (lane8 t 1))
    (f (lane8 s 0) (lane8 t 0))
  interval_cases k
  · exact h.1
  · exact h.2.1
  · exact h.2.2.1
  · exact h.2.2.2

/-- Each halfword of `lanes_16` is the function of the operands' halfwords (R220). -/
theorem lane16_lanes16 (f : Half → Half → Half) (s t : Word) {k : Nat} (hk : k < 2) :
    lane16 (lanes16 f s t) k = f (lane16 s k) (lane16 t k) := by
  have h := lane16_append (f (lane16 s 1) (lane16 t 1)) (f (lane16 s 0) (lane16 t 0))
  interval_cases k
  · exact h.1
  · exact h.2

/-- The low and the high halfword of `vlo`, then those of `vhi` (R26). -/
theorem vectorHalf_eq (t : State) :
    vectorHalf t 0 = lane16 t.vlo 0 ∧ vectorHalf t 1 = lane16 t.vlo 1 ∧
    vectorHalf t 2 = lane16 t.vhi 0 ∧ vectorHalf t 3 = lane16 t.vhi 1 := by
  refine ⟨?_, ?_, ?_, ?_⟩ <;> (ext k hk; simp [vectorHalf, lane16]; try grind)

/-- An exact 8-bit product fits sixteen bits (R229). -/
theorem mulLane8_toNat (s t : Word) (i : Nat) : (mulLane8 s t i).toNat = (lane8 s i).toNat * (lane8 t i).toNat := by
  have h1 := (lane8 s i).isLt
  have h2 := (lane8 t i).isLt
  rw [mulLane8, BitVec.toNat_ofNat]
  apply Nat.mod_eq_of_lt
  calc (lane8 s i).toNat * (lane8 t i).toNat < 2 ^ 8 * 2 ^ 8 := Nat.mul_lt_mul'' h1 h2
    _ = 2 ^ 16 := by norm_num

/-- An exact 16-bit product fits thirty-two bits (R230). -/
theorem mulLane16_toNat (s t : Word) (i : Nat) :
    (mulLane16 s t i).toNat = (lane16 s i).toNat * (lane16 t i).toNat := by
  have h1 := (lane16 s i).isLt
  have h2 := (lane16 t i).isLt
  rw [mulLane16, BitVec.toNat_ofNat]
  apply Nat.mod_eq_of_lt
  calc (lane16 s i).toNat * (lane16 t i).toNat < 2 ^ 16 * 2 ^ 16 := Nat.mul_lt_mul'' h1 h2
    _ = 2 ^ 32 := by norm_num

/-- The remainder byte above the quotient byte, where the divisor is not zero (R227). -/
theorem divLane8_fields (k : Nat) {s t : Word} {i : Nat} (h : lane8 t i ≠ 0) :
    (divLane8 k s t i).extractLsb' 0 8 = lane8 s i / lane8 t i ∧
    (divLane8 k s t i).extractLsb' 8 8 = lane8 s i % lane8 t i := by
  rw [divLane8, if_neg h]
  constructor <;> (ext j hj; simp; try grind)

/-- The remainder halfword above the quotient halfword, where the divisor is not zero (R228). -/
theorem divLane16_fields (k : Nat) {s t : Word} {i : Nat} (h : lane16 t i ≠ 0) :
    lane16 (divLane16 k s t i) 0 = lane16 s i / lane16 t i ∧ lane16 (divLane16 k s t i) 1 = lane16 s i % lane16 t i := by
  rw [divLane16, if_neg h]
  exact lane16_append _ _

end Sys2Proof.Machine
end

