-- ==== Sys2Proof/Laws/PerInstr.lean ====
section
/-! SUPPORT. Statements made per instruction: every encoding fits its row of spec/opcode_table.json, the row's match
value under the row's mask. -/

namespace Sys2Proof.Laws

/-- The mask of the instruction's row of the opcode table. -/
def EncodeFitsTable.mask : Instr → Word
  | .sll _ _ _ => 0xFC00003F
  | .srl _ _ _ => 0xFC00003F
  | .sra _ _ _ => 0xFC00003F
  | .jr _ => 0xFC00003F
  | .jalr _ => 0xFC00003F
  | .brk => 0xFC00003F
  | .mfhi _ => 0xFC00003F
  | .mflo _ => 0xFC00003F
  | .mult _ _ => 0xFC00003F
  | .div _ _ => 0xFC00003F
  | .setie => 0xFC00003F
  | .add _ _ _ => 0xFC00003F
  | .addu _ _ _ => 0xFC00003F
  | .sub _ _ _ => 0xFC00003F
  | .subu _ _ _ => 0xFC00003F
  | .and _ _ _ => 0xFC00003F
  | .or _ _ _ => 0xFC00003F
  | .xor _ _ _ => 0xFC00003F
  | .nor _ _ _ => 0xFC00003F
  | .slt _ _ _ => 0xFC00003F
  | .sltu _ _ _ => 0xFC00003F
  | .rb _ _ => 0xFC00003F
  | .rbo _ _ => 0xFC00003F
  | .rr _ _ _ => 0xFC00003F
  | .bgez _ _ => 0xFC000000
  | .beq _ _ _ => 0xFC000000
  | .bne _ _ _ => 0xFC000000
  | .blez _ _ => 0xFC000000
  | .bgtz _ _ => 0xFC000000
  | .addi _ _ _ => 0xFC000000
  | .bltz _ _ => 0xFC000000
  | .slti _ _ _ => 0xFC000000
  | .sltiu _ _ _ => 0xFC000000
  | .andi _ _ _ => 0xFC000000
  | .ori _ _ _ => 0xFC000000
  | .xori _ _ _ => 0xFC000000
  | .lui _ _ => 0xFC000000
  | .bdt _ => 0xFC000000
  | .bdf _ => 0xFC000000
  | .input _ _ _ => 0xFC000000
  | .output _ _ _ => 0xFC000000
  | .reti => 0xFC000000
  | .lw _ _ _ => 0xFC000000
  | .bsi _ _ _ => 0xFC000000
  | .bci _ _ _ => 0xFC000000
  | .sw _ _ _ => 0xFC000000
  | .j _ => 0xFC000000
  | .jal _ => 0xFC000000
  | .add8 _ _ _ => 0xFC0007C3
  | .add16 _ _ _ => 0xFC0007C3
  | .sub8 _ _ _ => 0xFC0007C3
  | .sub16 _ _ _ => 0xFC0007C3
  | .and8 _ _ _ => 0xFC0007C3
  | .and16 _ _ _ => 0xFC0007C3
  | .or8 _ _ _ => 0xFC0007C3
  | .or16 _ _ _ => 0xFC0007C3
  | .not8 _ _ => 0xFC0007C3
  | .not16 _ _ => 0xFC0007C3
  | .xor8 _ _ _ => 0xFC0007C3
  | .xor16 _ _ _ => 0xFC0007C3
  | .mul8 _ _ => 0xFC0007C3
  | .mul16 _ _ => 0xFC0007C3
  | .div8 _ _ => 0xFC0007C3
  | .div16 _ _ => 0xFC0007C3
  | .vmfhi8 _ => 0xFC0007C3
  | .vmfhi16 _ => 0xFC0007C3
  | .vmflo8 _ => 0xFC0007C3
  | .vmflo16 _ => 0xFC0007C3

/-- The match value of the instruction's row of the opcode table. -/
def EncodeFitsTable.value : Instr → Word
  | .sll _ _ _ => 0x00000000
  | .srl _ _ _ => 0x00000002
  | .sra _ _ _ => 0x00000003
  | .jr _ => 0x00000008
  | .jalr _ => 0x00000009
  | .brk => 0x0000000D
  | .mfhi _ => 0x00000010
  | .mflo _ => 0x00000012
  | .mult _ _ => 0x00000018
  | .div _ _ => 0x0000001A
  | .setie => 0x0000001F
  | .add _ _ _ => 0x00000020
  | .addu _ _ _ => 0x00000021
  | .sub _ _ _ => 0x00000022
  | .subu _ _ _ => 0x00000023
  | .and _ _ _ => 0x00000024
  | .or _ _ _ => 0x00000025
  | .xor _ _ _ => 0x00000026
  | .nor _ _ _ => 0x00000027
  | .slt _ _ _ => 0x0000002A
  | .sltu _ _ _ => 0x0000002B
  | .rb _ _ => 0x0000002C
  | .rbo _ _ => 0x0000002D
  | .rr _ _ _ => 0x00000034
  | .bgez _ _ => 0x04000000
  | .beq _ _ _ => 0x10000000
  | .bne _ _ _ => 0x14000000
  | .blez _ _ => 0x18000000
  | .bgtz _ _ => 0x1C000000
  | .addi _ _ _ => 0x20000000
  | .bltz _ _ => 0x24000000
  | .slti _ _ _ => 0x28000000
  | .sltiu _ _ _ => 0x2C000000
  | .andi _ _ _ => 0x30000000
  | .ori _ _ _ => 0x34000000
  | .xori _ _ _ => 0x38000000
  | .lui _ _ => 0x3C000000
  | .bdt _ => 0x40000000
  | .bdf _ => 0x44000000
  | .input _ _ _ => 0x70000000
  | .output _ _ _ => 0x74000000
  | .reti => 0x78000000
  | .lw _ _ _ => 0x8C000000
  | .bsi _ _ _ => 0x90000000
  | .bci _ _ _ => 0x94000000
  | .sw _ _ _ => 0xAC000000
  | .j _ => 0x08000000
  | .jal _ => 0x0C000000
  | .add8 _ _ _ => 0x7C000081
  | .add16 _ _ _ => 0x7C000082
  | .sub8 _ _ _ => 0x7C0000C1
  | .sub16 _ _ _ => 0x7C0000C2
  | .and8 _ _ _ => 0x7C000101
  | .and16 _ _ _ => 0x7C000102
  | .or8 _ _ _ => 0x7C000141
  | .or16 _ _ _ => 0x7C000142
  | .not8 _ _ => 0x7C000181
  | .not16 _ _ => 0x7C000182
  | .xor8 _ _ _ => 0x7C0001C1
  | .xor16 _ _ _ => 0x7C0001C2
  | .mul8 _ _ => 0x7C000201
  | .mul16 _ _ => 0x7C000202
  | .div8 _ _ => 0x7C000241
  | .div16 _ _ => 0x7C000242
  | .vmfhi8 _ => 0x7C000281
  | .vmfhi16 _ => 0x7C000282
  | .vmflo8 _ => 0x7C0002C1
  | .vmflo16 _ => 0x7C0002C2

/-- The word the encoder writes fits the instruction's row of the opcode table. -/
def EncodeFitsTable.Statement (i : Instr) : Prop :=
  encode i &&& EncodeFitsTable.mask i = EncodeFitsTable.value i

/-- Under its row's mask an R-Type word is its function code. -/
theorem rWord_masked (rs rt rd shamt : BitVec 5) (funct : BitVec 6) :
    rWord rs rt rd shamt funct &&& 0xFC00003F = rWord 0 0 0 0 funct := by
  have h : (0xFC00003F : Word) = BitVec.allOnes 6 ++ 0#5 ++ 0#5 ++ 0#5 ++ 0#5 ++ BitVec.allOnes 6 := by decide
  rw [h, rWord, rWord, BitVec.and_append, BitVec.and_append, BitVec.and_append, BitVec.and_append, BitVec.and_append]
  simp only [BitVec.and_allOnes, BitVec.and_zero]
  rfl

/-- Under its row's mask an I-Type word is its opcode. -/
theorem iWord_masked (op : BitVec 6) (rs rt : RegNum) (imm : BitVec 16) :
    iWord op rs rt imm &&& 0xFC000000 = iWord op 0 0 0 := by
  have h : (0xFC000000 : Word) = BitVec.allOnes 6 ++ 0#5 ++ 0#5 ++ 0#16 := by decide
  rw [h, iWord, iWord, BitVec.and_append, BitVec.and_append, BitVec.and_append]
  simp only [BitVec.and_allOnes, BitVec.and_zero]
  rfl

/-- Under its row's mask a J-Type word is its opcode. -/
theorem jWord_masked (op : BitVec 6) (addr : BitVec 26) : jWord op addr &&& 0xFC000000 = jWord op 0 := by
  have h : (0xFC000000 : Word) = BitVec.allOnes 6 ++ 0#26 := by decide
  rw [h, jWord, jWord, BitVec.and_append]
  simp only [BitVec.and_allOnes, BitVec.and_zero]
  rfl

/-- Under its row's mask a V-Type word is its key, function select and mode select. -/
theorem vWord_masked (rs rt rd vfs : BitVec 5) (msel : BitVec 2) :
    vWord rs rt rd vfs msel &&& 0xFC0007C3 = vWord 0 0 0 vfs msel := by
  have h : (0xFC0007C3 : Word) = BitVec.allOnes 6 ++ 0#5 ++ 0#5 ++ 0#5 ++ BitVec.allOnes 5 ++ 0#4 ++ BitVec.allOnes 2 := by decide
  rw [h, vWord, vWord, BitVec.and_append, BitVec.and_append, BitVec.and_append, BitVec.and_append, BitVec.and_append, BitVec.and_append]
  simp only [BitVec.and_allOnes, BitVec.and_zero]
  rfl

theorem EncodeFitsTable.sll (rd : RegNum) (rt : RegNum) (shamt : Nat) : EncodeFitsTable.Statement (.sll rd rt shamt) :=
  (rWord_masked _ _ _ _ _).trans rfl
theorem EncodeFitsTable.srl (rd : RegNum) (rt : RegNum) (shamt : Nat) : EncodeFitsTable.Statement (.srl rd rt shamt) :=
  (rWord_masked _ _ _ _ _).trans rfl
theorem EncodeFitsTable.sra (rd : RegNum) (rt : RegNum) (shamt : Nat) : EncodeFitsTable.Statement (.sra rd rt shamt) :=
  (rWord_masked _ _ _ _ _).trans rfl
theorem EncodeFitsTable.jr (rs : RegNum) : EncodeFitsTable.Statement (.jr rs) :=
  (rWord_masked _ _ _ _ _).trans rfl
theorem EncodeFitsTable.jalr (rs : RegNum) : EncodeFitsTable.Statement (.jalr rs) :=
  (rWord_masked _ _ _ _ _).trans rfl
theorem EncodeFitsTable.brk : EncodeFitsTable.Statement (.brk) :=
  (rWord_masked _ _ _ _ _).trans rfl
theorem EncodeFitsTable.mfhi (rd : RegNum) : EncodeFitsTable.Statement (.mfhi rd) :=
  (rWord_masked _ _ _ _ _).trans rfl
theorem EncodeFitsTable.mflo (rd : RegNum) : EncodeFitsTable.Statement (.mflo rd) :=
  (rWord_masked _ _ _ _ _).trans rfl
theorem EncodeFitsTable.mult (rs : RegNum) (rt : RegNum) : EncodeFitsTable.Statement (.mult rs rt) :=
  (rWord_masked _ _ _ _ _).trans rfl
theorem EncodeFitsTable.div (rs : RegNum) (rt : RegNum) : EncodeFitsTable.Statement (.div rs rt) :=
  (rWord_masked _ _ _ _ _).trans rfl
theorem EncodeFitsTable.setie : EncodeFitsTable.Statement (.setie) :=
  (rWord_masked _ _ _ _ _).trans rfl
theorem EncodeFitsTable.add (rd : RegNum) (rs : RegNum) (rt : RegNum) : EncodeFitsTable.Statement (.add rd rs rt) :=
  (rWord_masked _ _ _ _ _).trans rfl
theorem EncodeFitsTable.addu (rd : RegNum) (rs : RegNum) (rt : RegNum) : EncodeFitsTable.Statement (.addu rd rs rt) :=
  (rWord_masked _ _ _ _ _).trans rfl
theorem EncodeFitsTable.sub (rd : RegNum) (rs : RegNum) (rt : RegNum) : EncodeFitsTable.Statement (.sub rd rs rt) :=
  (rWord_masked _ _ _ _ _).trans rfl
theorem EncodeFitsTable.subu (rd : RegNum) (rs : RegNum) (rt : RegNum) : EncodeFitsTable.Statement (.subu rd rs rt) :=
  (rWord_masked _ _ _ _ _).trans rfl
theorem EncodeFitsTable.and (rd : RegNum) (rs : RegNum) (rt : RegNum) : EncodeFitsTable.Statement (.and rd rs rt) :=
  (rWord_masked _ _ _ _ _).trans rfl
theorem EncodeFitsTable.or (rd : RegNum) (rs : RegNum) (rt : RegNum) : EncodeFitsTable.Statement (.or rd rs rt) :=
  (rWord_masked _ _ _ _ _).trans rfl
theorem EncodeFitsTable.xor (rd : RegNum) (rs : RegNum) (rt : RegNum) : EncodeFitsTable.Statement (.xor rd rs rt) :=
  (rWord_masked _ _ _ _ _).trans rfl
theorem EncodeFitsTable.nor (rd : RegNum) (rs : RegNum) (rt : RegNum) : EncodeFitsTable.Statement (.nor rd rs rt) :=
  (rWord_masked _ _ _ _ _).trans rfl
theorem EncodeFitsTable.slt (rd : RegNum) (rs : RegNum) (rt : RegNum) : EncodeFitsTable.Statement (.slt rd rs rt) :=
  (rWord_masked _ _ _ _ _).trans rfl
theorem EncodeFitsTable.sltu (rd : RegNum) (rs : RegNum) (rt : RegNum) : EncodeFitsTable.Statement (.sltu rd rs rt) :=
  (rWord_masked _ _ _ _ _).trans rfl
theorem EncodeFitsTable.rb (rd : RegNum) (rs : RegNum) : EncodeFitsTable.Statement (.rb rd rs) :=
  (rWord_masked _ _ _ _ _).trans rfl
theorem EncodeFitsTable.rbo (rd : RegNum) (rs : RegNum) : EncodeFitsTable.Statement (.rbo rd rs) :=
  (rWord_masked _ _ _ _ _).trans rfl
theorem EncodeFitsTable.rr (rd : RegNum) (rt : RegNum) (shamt : Nat) : EncodeFitsTable.Statement (.rr rd rt shamt) :=
  (rWord_masked _ _ _ _ _).trans rfl
theorem EncodeFitsTable.bgez (rs : RegNum) (off : Int) : EncodeFitsTable.Statement (.bgez rs off) :=
  (iWord_masked _ _ _ _).trans rfl
theorem EncodeFitsTable.beq (rs : RegNum) (rt : RegNum) (off : Int) : EncodeFitsTable.Statement (.beq rs rt off) :=
  (iWord_masked _ _ _ _).trans rfl
theorem EncodeFitsTable.bne (rs : RegNum) (rt : RegNum) (off : Int) : EncodeFitsTable.Statement (.bne rs rt off) :=
  (iWord_masked _ _ _ _).trans rfl
theorem EncodeFitsTable.blez (rs : RegNum) (off : Int) : EncodeFitsTable.Statement (.blez rs off) :=
  (iWord_masked _ _ _ _).trans rfl
theorem EncodeFitsTable.bgtz (rs : RegNum) (off : Int) : EncodeFitsTable.Statement (.bgtz rs off) :=
  (iWord_masked _ _ _ _).trans rfl
theorem EncodeFitsTable.addi (rt : RegNum) (rs : RegNum) (imm : BitVec 16) : EncodeFitsTable.Statement (.addi rt rs imm) :=
  (iWord_masked _ _ _ _).trans rfl
theorem EncodeFitsTable.bltz (rs : RegNum) (off : Int) : EncodeFitsTable.Statement (.bltz rs off) :=
  (iWord_masked _ _ _ _).trans rfl
theorem EncodeFitsTable.slti (rt : RegNum) (rs : RegNum) (imm : BitVec 16) : EncodeFitsTable.Statement (.slti rt rs imm) :=
  (iWord_masked _ _ _ _).trans rfl
theorem EncodeFitsTable.sltiu (rt : RegNum) (rs : RegNum) (imm : BitVec 16) : EncodeFitsTable.Statement (.sltiu rt rs imm) :=
  (iWord_masked _ _ _ _).trans rfl
theorem EncodeFitsTable.andi (rt : RegNum) (rs : RegNum) (imm : BitVec 16) : EncodeFitsTable.Statement (.andi rt rs imm) :=
  (iWord_masked _ _ _ _).trans rfl
theorem EncodeFitsTable.ori (rt : RegNum) (rs : RegNum) (imm : BitVec 16) : EncodeFitsTable.Statement (.ori rt rs imm) :=
  (iWord_masked _ _ _ _).trans rfl
theorem EncodeFitsTable.xori (rt : RegNum) (rs : RegNum) (imm : BitVec 16) : EncodeFitsTable.Statement (.xori rt rs imm) :=
  (iWord_masked _ _ _ _).trans rfl
theorem EncodeFitsTable.lui (rt : RegNum) (imm : BitVec 16) : EncodeFitsTable.Statement (.lui rt imm) :=
  (iWord_masked _ _ _ _).trans rfl
theorem EncodeFitsTable.bdt (off : Int) : EncodeFitsTable.Statement (.bdt off) :=
  (iWord_masked _ _ _ _).trans rfl
theorem EncodeFitsTable.bdf (off : Int) : EncodeFitsTable.Statement (.bdf off) :=
  (iWord_masked _ _ _ _).trans rfl
theorem EncodeFitsTable.input (rt : RegNum) (rs : RegNum) (imm : BitVec 16) : EncodeFitsTable.Statement (.input rt rs imm) :=
  (iWord_masked _ _ _ _).trans rfl
theorem EncodeFitsTable.output (rt : RegNum) (rs : RegNum) (imm : BitVec 16) : EncodeFitsTable.Statement (.output rt rs imm) :=
  (iWord_masked _ _ _ _).trans rfl
theorem EncodeFitsTable.reti : EncodeFitsTable.Statement (.reti) :=
  (iWord_masked _ _ _ _).trans rfl
theorem EncodeFitsTable.lw (rt : RegNum) (rs : RegNum) (imm : BitVec 16) : EncodeFitsTable.Statement (.lw rt rs imm) :=
  (iWord_masked _ _ _ _).trans rfl
theorem EncodeFitsTable.bsi (rt : RegNum) (rs : RegNum) (imm : BitVec 16) : EncodeFitsTable.Statement (.bsi rt rs imm) :=
  (iWord_masked _ _ _ _).trans rfl
theorem EncodeFitsTable.bci (rt : RegNum) (rs : RegNum) (imm : BitVec 16) : EncodeFitsTable.Statement (.bci rt rs imm) :=
  (iWord_masked _ _ _ _).trans rfl
theorem EncodeFitsTable.sw (rt : RegNum) (rs : RegNum) (imm : BitVec 16) : EncodeFitsTable.Statement (.sw rt rs imm) :=
  (iWord_masked _ _ _ _).trans rfl
theorem EncodeFitsTable.j (addr : BitVec 26) : EncodeFitsTable.Statement (.j addr) :=
  (jWord_masked _ _).trans rfl
theorem EncodeFitsTable.jal (addr : BitVec 26) : EncodeFitsTable.Statement (.jal addr) :=
  (jWord_masked _ _).trans rfl
theorem EncodeFitsTable.add8 (rd : RegNum) (rs : RegNum) (rt : RegNum) : EncodeFitsTable.Statement (.add8 rd rs rt) :=
  (vWord_masked _ _ _ _ _).trans rfl
theorem EncodeFitsTable.add16 (rd : RegNum) (rs : RegNum) (rt : RegNum) : EncodeFitsTable.Statement (.add16 rd rs rt) :=
  (vWord_masked _ _ _ _ _).trans rfl
theorem EncodeFitsTable.sub8 (rd : RegNum) (rs : RegNum) (rt : RegNum) : EncodeFitsTable.Statement (.sub8 rd rs rt) :=
  (vWord_masked _ _ _ _ _).trans rfl
theorem EncodeFitsTable.sub16 (rd : RegNum) (rs : RegNum) (rt : RegNum) : EncodeFitsTable.Statement (.sub16 rd rs rt) :=
  (vWord_masked _ _ _ _ _).trans rfl
theorem EncodeFitsTable.and8 (rd : RegNum) (rs : RegNum) (rt : RegNum) : EncodeFitsTable.Statement (.and8 rd rs rt) :=
  (vWord_masked _ _ _ _ _).trans rfl
theorem EncodeFitsTable.and16 (rd : RegNum) (rs : RegNum) (rt : RegNum) : EncodeFitsTable.Statement (.and16 rd rs rt) :=
  (vWord_masked _ _ _ _ _).trans rfl
theorem EncodeFitsTable.or8 (rd : RegNum) (rs : RegNum) (rt : RegNum) : EncodeFitsTable.Statement (.or8 rd rs rt) :=
  (vWord_masked _ _ _ _ _).trans rfl
theorem EncodeFitsTable.or16 (rd : RegNum) (rs : RegNum) (rt : RegNum) : EncodeFitsTable.Statement (.or16 rd rs rt) :=
  (vWord_masked _ _ _ _ _).trans rfl
theorem EncodeFitsTable.not8 (rd : RegNum) (rs : RegNum) : EncodeFitsTable.Statement (.not8 rd rs) :=
  (vWord_masked _ _ _ _ _).trans rfl
theorem EncodeFitsTable.not16 (rd : RegNum) (rs : RegNum) : EncodeFitsTable.Statement (.not16 rd rs) :=
  (vWord_masked _ _ _ _ _).trans rfl
theorem EncodeFitsTable.xor8 (rd : RegNum) (rs : RegNum) (rt : RegNum) : EncodeFitsTable.Statement (.xor8 rd rs rt) :=
  (vWord_masked _ _ _ _ _).trans rfl
theorem EncodeFitsTable.xor16 (rd : RegNum) (rs : RegNum) (rt : RegNum) : EncodeFitsTable.Statement (.xor16 rd rs rt) :=
  (vWord_masked _ _ _ _ _).trans rfl
theorem EncodeFitsTable.mul8 (rs : RegNum) (rt : RegNum) : EncodeFitsTable.Statement (.mul8 rs rt) :=
  (vWord_masked _ _ _ _ _).trans rfl
theorem EncodeFitsTable.mul16 (rs : RegNum) (rt : RegNum) : EncodeFitsTable.Statement (.mul16 rs rt) :=
  (vWord_masked _ _ _ _ _).trans rfl
theorem EncodeFitsTable.div8 (rs : RegNum) (rt : RegNum) : EncodeFitsTable.Statement (.div8 rs rt) :=
  (vWord_masked _ _ _ _ _).trans rfl
theorem EncodeFitsTable.div16 (rs : RegNum) (rt : RegNum) : EncodeFitsTable.Statement (.div16 rs rt) :=
  (vWord_masked _ _ _ _ _).trans rfl
theorem EncodeFitsTable.vmfhi8 (rd : RegNum) : EncodeFitsTable.Statement (.vmfhi8 rd) :=
  (vWord_masked _ _ _ _ _).trans rfl
theorem EncodeFitsTable.vmfhi16 (rd : RegNum) : EncodeFitsTable.Statement (.vmfhi16 rd) :=
  (vWord_masked _ _ _ _ _).trans rfl
theorem EncodeFitsTable.vmflo8 (rd : RegNum) : EncodeFitsTable.Statement (.vmflo8 rd) :=
  (vWord_masked _ _ _ _ _).trans rfl
theorem EncodeFitsTable.vmflo16 (rd : RegNum) : EncodeFitsTable.Statement (.vmflo16 rd) :=
  (vWord_masked _ _ _ _ _).trans rfl

end Sys2Proof.Laws
end

