-- ==== Sys2Proof/Laws/Step.lean ====
section
/-! SUPPORT. What a step can do, said once: one lemma for each way through it, and the inversion that lists them. -/

namespace Sys2Proof.Machine

variable {s t : State}

/-- A reset pulse is the whole step (R300). -/
theorem step_of_reset (h : s.hostMove.reset = true) : step s = .next s.atBoundary.resetPulse := by
  simp [step, h]

/-- At an end of run there is no step (R8). -/
theorem step_of_ended {e : RunEnd} (h : s.hostMove.reset = false) (he : s.ended = some e) :
    step s = .fault (s.atBoundary.endFault e) := by
  simp [step, h, he]

/-- Otherwise the interrupt check decides (R262). -/
theorem step_of_runs (h : s.Runs) : step s = runStep s.atBoundary := by
  simp [step, h.1, h.2]

/-- An accepted interrupt is the whole step (R265). -/
theorem step_of_enter (h : s.Runs) (ha : s.intAck = false) (hi : s.hostMove.intr = true)
    (he : s.flags.ie = true) : step s = .next s.atBoundary.interruptEntry := by
  rw [step_of_runs h, runStep, (State.boundaryAction_enter s.atBoundary).2 ⟨ha, hi, he⟩]

/-- A masked request blocks the fetch (R263). -/
theorem step_of_blocked (h : s.Runs) (ha : s.intAck = false) (hi : s.hostMove.intr = true)
    (he : s.flags.ie = false) : step s = .next s.atBoundary := by
  rw [step_of_runs h, runStep, (State.boundaryAction_blocked s.atBoundary).2 ⟨ha, hi, he⟩]

/-- Else the step fetches, decodes and executes (R7, R264). -/
theorem step_of_fetch (h : s.Runs) (hf : s.FetchAllowed) : step s = fetchExecute s.atBoundary.settleAck := by
  rw [step_of_runs h, runStep, (State.boundaryAction_fetch s.atBoundary).2 hf]

/-- The word fetched is the one instruction memory holds (R55). -/
theorem fetch_ir_of_holdsWord {w : Word} (h : HoldsWord s.imem (idx s.pc) w) :
    s.atBoundary.settleAck.fetch.ir = w := by
  rw [State.fetch_ir, State.imemWord, State.settleAck_imem, State.settleAck_pc]
  exact Memory.wordAt_of_holdsWord h _

/-- Where a word decodes, fetching and executing is its instruction's meaning. -/
theorem fetchExecute_of_ok {i : Instr} (h : decodeWord s.fetch.ir = .ok i) : fetchExecute s = exec i s.fetch := by
  simp only [fetchExecute, h]

/-- Where it does not, the run ends (R260, R222). -/
theorem fetchExecute_of_error {e : DecodeError} (h : decodeWord s.fetch.ir = .error e) :
    fetchExecute s = .next (s.fetch.endRun (runEndOf e)) := by
  simp only [fetchExecute, h]

/-- Every way to a next state. -/
theorem step_cases (h : step s = .next t) :
    (s.hostMove.reset = true ∧ t = s.atBoundary.resetPulse) ∨
    (s.Runs ∧ s.intAck = false ∧ s.hostMove.intr = true ∧ s.flags.ie = true ∧ t = s.atBoundary.interruptEntry) ∨
    (s.Runs ∧ s.intAck = false ∧ s.hostMove.intr = true ∧ s.flags.ie = false ∧ t = s.atBoundary) ∨
    (s.Runs ∧ s.FetchAllowed ∧ ∃ i, decodeWord s.atBoundary.settleAck.fetch.ir = .ok i ∧
      exec i s.atBoundary.settleAck.fetch = .next t) ∨
    (s.Runs ∧ s.FetchAllowed ∧ ∃ e, decodeWord s.atBoundary.settleAck.fetch.ir = .error e ∧
      t = s.atBoundary.settleAck.fetch.endRun (runEndOf e)) := by
  cases hr : s.hostMove.reset with
  | true => rw [step_of_reset hr] at h; cases h; exact .inl ⟨rfl, rfl⟩
  | false =>
    cases he : s.ended with
    | some e => rw [step_of_ended hr he] at h; cases h
    | none =>
      have hs : s.Runs := ⟨he, hr⟩
      by_cases hf : s.FetchAllowed
      · rw [step_of_fetch hs hf] at h
        cases hd : decodeWord s.atBoundary.settleAck.fetch.ir with
        | ok i => rw [fetchExecute_of_ok hd] at h; exact .inr (.inr (.inr (.inl ⟨hs, hf, i, rfl, h⟩)))
        | error e =>
          rw [fetchExecute_of_error hd] at h; cases h
          exact .inr (.inr (.inr (.inr ⟨hs, hf, e, rfl, rfl⟩)))
      · have hi : s.hostMove.intr = true := Bool.eq_true_of_not_eq_false fun h => hf (.inl h)
        have ha : s.intAck = false := Bool.eq_false_of_not_eq_true fun h => hf (.inr h)
        cases hie : s.flags.ie with
        | true =>
          rw [step_of_enter hs ha hi hie] at h; cases h
          exact .inr (.inl ⟨hs, ha, hi, rfl, rfl⟩)
        | false =>
          rw [step_of_blocked hs ha hi hie] at h; cases h
          exact .inr (.inr (.inl ⟨hs, ha, hi, rfl, rfl⟩))

/-- The state with a word placed runs that word's instruction first, whatever the machine was doing. -/
theorem step_withFetchWord (s : State) (nbits w : Nat) {i : Instr} (h : decodeWord (tableWord nbits w) = .ok i) :
    step (s.withFetchWord nbits w) = exec i (s.withFetchWord nbits w).atBoundary.settleAck.fetch := by
  have hw : HoldsWord (s.withFetchWord nbits w).imem (idx (s.withFetchWord nbits w).pc) (tableWord nbits w) :=
    Memory.setWord_holdsWord _ _ _
  rw [step_of_fetch ⟨rfl, rfl⟩ (.inl rfl), fetchExecute_of_ok]
  rw [fetch_ir_of_holdsWord hw]
  exact h

/-- A run's first step (Host/Core.lean). -/
theorem core_run_succ (M : Host.Core) (n : Nat) (s v : M.State) (h : M.step s = .next v) :
    M.run (n + 1) s = M.run n v := by
  rw [Host.Core.run, h]

end Sys2Proof.Machine
end

