-- ==== Sys2Proof/Tests/Slice0.lean ====
section
/-! SUPPORT. The model's own tests: the WellFormed smoke, words written out from the spec's encodings, one-step results
taken from the spec's vectors (95 sections 1 to 4), and for every obligation with hypotheses states that meet them. -/

namespace Sys2Proof.Tests

open Sys2Proof Sys2Proof.Machine

/-! ### Helpers -/

/-- A small state: every register 0 but `$sp`, and `pc` just after an instruction at 0x100. -/
def base : State := { State.reset with regs := (Vector.replicate 32 0).set 29 0x3FC, pc := 0x104 }

/-- `base` with these registers set. -/
def withRegs (l : List (RegNum × Word)) : State := l.foldl (fun s p => s.setReg p.1 p.2) base

/-- A memory holding these words. -/
def memOf (l : List (Nat × Word)) : Memory := l.foldl (fun m p => m.setWord p.1 p.2) ⟨[]⟩

/-- The next state of an outcome, a state with a telling `pc` where there is none. -/
def after : Host.Outcome State Fault Refusal → State
  | .next t => t
  | _ => { base with pc := 0xBAD }

/-- The carry, overflow, negative and zero flags together. -/
def cvnz (s : State) : List Bool := [s.flags.c, s.flags.v, s.flags.n, s.flags.z]

/-- The boundary at which the host presents this level and does nothing else. -/
def level (b : Bool) : HostMove := ⟨b, [], false⟩

/-- A state about to fetch the word `w` at 0x100. -/
def fetching (w : Nat) : State := ({ base with pc := 0x100 } : State).withFetchWord 32 w

/-! ### WellFormed smoke: each check refuses an ill-formed term and accepts the boundary -/

theorem test_wf_shamt : [(fun n => Instr.sll 1 2 n), .srl 1 2, .sra 1 2, .rr 1 2].all
    (fun f => !(f 32).wellFormed && (f 31).wellFormed && (f 0).wellFormed) = true := by decide

theorem test_wf_offset : [(fun o => Instr.bgez 1 o), .bltz 1, .blez 1, .bgtz 1, .beq 1 2, .bne 1 2, .bdt, .bdf].all
    (fun f => !(f 32768).wellFormed && !(f (-32769)).wellFormed && (f 32767).wellFormed && (f (-32768)).wellFormed)
    = true := by decide

/-! ### Decoding: words of the spec, and the same words from the encoder -/

/-- The word decodes to the instruction, through the table's numbering, and the instruction encodes to the word. -/
def agrees (p : Nat × Instr) : Bool := decodeTableWord 32 p.1 == some p.2 && encode p.2 == BitVec.ofNat 32 p.1

theorem test_decode_rtype : ([
      (0x00221820, .add 3 1 2), (0x00221821, .addu 3 1 2), (0x00221824, .and 3 1 2), (0x0061001A, .div 3 1),
      (0x03E00008, .jr 31), (0x00A00009, .jalr 5), (0x00005010, .mfhi 10), (0x00004812, .mflo 9),
      (0x00610018, .mult 3 1), (0x00221827, .nor 3 1 2), (0x00221825, .or 3 1 2), (0x0120082C, .rb 1 9),
      (0x0180782D, .rbo 15 12), (0x000218B4, .rr 3 2 2), (0x00011F40, .sll 3 1 29), (0x0022182A, .slt 3 1 2),
      (0x0022182B, .sltu 3 1 2), (0x00011843, .sra 3 1 1), (0x00011942, .srl 3 1 5),
      (0x01A65022, .sub 10 13 6), (0x01A65023, .subu 10 13 6), (0x00221826, .xor 3 1 2), (0x0000000D, .brk),
      (0x0000001F, .setie)] : List (Nat × Instr)).all agrees = true := by decide

theorem test_decode_itype : ([
      (0x20220005, .addi 2 1 5), (0x3187F5FA, .andi 7 12 0xF5FA), (0x9523001F, .bci 3 9 31),
      (0x44000003, .bdf 3), (0x40000003, .bdt 3), (0x10220002, .beq 1 2 2), (0x1C400001, .bgtz 2 1),
      (0x18400001, .blez 2 1), (0x15A0FFFA, .bne 13 0 (-6)), (0x91840010, .bsi 4 12 16),
      (0x3C02FFFF, .lui 2 0xFFFF), (0x8DE20000, .lw 2 15 0), (0x3442FFFF, .ori 2 2 0xFFFF),
      (0x28220005, .slti 2 1 5), (0x2C23FF8B, .sltiu 3 1 0xFF8B), (0xADE20000, .sw 2 15 0),
      (0x39A9AAAA, .xori 9 13 0xAAAA), (0x04400001, .bgez 2 1),
      (0x24400001, .bltz 2 1)] : List (Nat × Instr)).all agrees = true := by decide

theorem test_decode_jtype_and_enhancements : ([
      (0x08000015, .j 0x15), (0x0C100015, .jal 0x100015), (0x71E20000, .input 2 15 0),
      (0x75E20000, .output 2 15 0),
      (0x78000000, .reti)] : List (Nat × Instr)).all agrees = true := by decide

theorem test_decode_vtype : ([
      (0x7C221881, .add8 3 1 2), (0x7C625082, .add16 10 3 2), (0x7CA44101, .and8 8 5 4),
      (0x7D211902, .and16 3 9 1), (0x7DA80241, .div8 13 8), (0x7CC50242, .div16 6 5), (0x7C890201, .mul8 4 9),
      (0x7C6A0202, .mul16 3 10), (0x7CC01981, .not8 3 6), (0x7CE02982, .not16 5 7), (0x7D6F2141, .or8 4 11 15),
      (0x7D062942, .or16 5 8 6), (0x7CE840C1, .sub8 8 7 8), (0x7D2850C2, .sub16 10 9 8),
      (0x7D2611C1, .xor8 2 9 6), (0x7D8721C2, .xor16 4 12 7), (0x7C005A81, .vmfhi8 11),
      (0x7C005A82, .vmfhi16 11), (0x7C0052C1, .vmflo8 10),
      (0x7C0052C2, .vmflo16 10)] : List (Nat × Instr)).all agrees = true := by decide

/-- ADD R3, R1, R2 as its page prints it (95 section 1.1). -/
theorem test_bits_add :
    decodeWord (0b000000#6 ++ 0b00001#5 ++ 0b00010#5 ++ 0b00011#5 ++ 0b00000#5 ++ 0b100000#6)
      = .ok (.add 3 1 2) := by decide

/-- RR R3, R2, 2, its source in bits 20:16 (R124, conflict C11). -/
theorem test_bits_rr :
    decodeWord (0b000000#6 ++ 0b00000#5 ++ 0b00010#5 ++ 0b00011#5 ++ 0b00010#5 ++ 0b110100#6)
      = .ok (.rr 3 2 2) := by decide

/-- BCI R3, R9, 31 as its page prints it (95 section 1.2). -/
theorem test_bits_bci :
    decodeWord (0b100101#6 ++ 0b01001#5 ++ 0b00011#5 ++ 0b0000000000011111#16)
      = .ok (.bci 3 9 31) := by decide

/-- BNE with a negative offset (R170). -/
theorem test_bits_bne :
    decodeWord (0b000101#6 ++ 0b01101#5 ++ 0b00000#5 ++ 0b1111111111111010#16)
      = .ok (.bne 13 0 (-6)) := by decide

/-- JAL (R83, R201). -/
theorem test_bits_jal :
    decodeWord (0b000011#6 ++ 0b00000100000000000000010101#26)
      = .ok (.jal 0x100015) := by decide

/-- OUTPUT R2, 0(R15) (R211). -/
theorem test_bits_output :
    decodeWord (0b011101#6 ++ 0b01111#5 ++ 0b00010#5 ++ 0b0000000000000000#16)
      = .ok (.output 2 15 0) := by decide

/-- V-Type DIV in QUAD8 mode (R84, R227). -/
theorem test_bits_div8 :
    decodeWord (0b011111#6 ++ 0b01101#5 ++ 0b01000#5 ++ 0b00000#5 ++ 0b01001#5 ++ 0b0000#4 ++ 0b01#2)
      = .ok (.div8 13 8) := by decide

/-- Fields that an instruction ignores change nothing (R90; 95 sections 3.1, 3.3, 3.5, 3.10, 3.12). -/
theorem test_ignored_fields :
    decodeWord 0x00221FE0 = .ok (.add 3 1 2) ∧ decodeWord 0x00E11902 = .ok (.srl 3 1 4) ∧
    decodeWord 0x03FFFFCD = .ok .brk ∧ decodeWord 0x7BFFFFFF = .ok .reti ∧ decodeWord 0x7C223A3D = .ok (.mul8 1 2) ∧
    decodeWord 0x04210003 = .ok (.bgez 1 3) ∧ decodeWord 0x40640003 = .ok (.bdt 3) := by decide

/-- Illegal words (R260; 95 sections 3.5, 3.11, 3.12). -/
theorem test_illegal_words : ([0x48221234, 0x4C221234, 0x80221234, 0xFC221234, 0x00221804, 0x0000000C, 0x00220019,
    0x0000003F, 0x7C221801, 0x7C221842, 0x7C221B01, 0x7C221FC2] : List Word).all
    (fun w => decodeWord w == .error .illegalOp) = true := by decide

/-- V-Type words with mode select 00 or 11 (R222; 95 section 3.12): the mode is examined before the function. -/
theorem test_vtype_mode_words : ([0x7C221880, 0x7C221883, 0x7C221FC0] : List Word).all
    (fun w => decodeWord w == .error .vtypeMode) = true := by decide

theorem test_decode_stream : decode (encodeBytes (.jr 31) ++ [0xAA]) = .ok (.jr 31, [0xAA]) ∧
    decode [0, 0, 0] = .error .truncated := by decide

/-! ### One-step results (95 section 3, unless a comment names another) -/

theorem test_add_overflows : let t := after (exec (.add 3 1 2) (withRegs [(1, 0x7FFFFFFF), (2, 1)]));
    t.reg 3 = 0x80000000 ∧ t.flags.c = false ∧ t.flags.v = true ∧ t.flags.n = true ∧
    t.flags.z = false := by decide

theorem test_add_register_zero : let t := after (exec (.add 0 1 2) (withRegs [(1, 0xFFFFFFFF), (2, 1)]));
    t.reg 0 = 0 ∧ t.flags.c = true ∧ t.flags.v = false ∧ t.flags.n = false ∧
    t.flags.z = true := by decide

theorem test_addu : let t := after (exec (.addu 3 1 2) (withRegs [(1, 0xFFFFFFFF), (2, 1)]));
    t.reg 3 = 0 ∧ t.flags.c = true ∧ t.flags.v = true ∧ t.flags.z = true := by decide

theorem test_sub_borrows : let t := after (exec (.sub 3 1 2) (withRegs [(2, 1)]));
    t.reg 3 = 0xFFFFFFFF ∧ t.flags.c = true ∧ t.flags.v = false ∧ t.flags.n = true ∧
    t.flags.z = false := by decide

theorem test_sub_overflows : let t := after (exec (.sub 3 1 2) (withRegs [(1, 0x80000000), (2, 1)]));
    t.reg 3 = 0x7FFFFFFF ∧ t.flags.c = false ∧ t.flags.v = true ∧ t.flags.n = false ∧
    t.flags.z = false := by decide

theorem test_subu : let t := after (exec (.subu 3 1 2) (withRegs [(2, 1)]));
    t.reg 3 = 0xFFFFFFFF ∧ t.flags.c = true ∧ t.flags.v = true ∧ t.flags.z = false := by decide

theorem test_and : let t := after (exec (.and 3 1 2) (withRegs [(1, 0xFF00FF00), (2, 0x0FF00FF0)]));
    t.reg 3 = 0x0F000F00 ∧ t.flags.n = false ∧ t.flags.z = false := by decide

theorem test_or : let t := after (exec (.or 3 1 2) (withRegs [(1, 0xFF00FF00), (2, 0x0FF00FF0)]));
    t.reg 3 = 0xFFF0FFF0 ∧ t.flags.n = true ∧ t.flags.z = false := by decide

theorem test_xor : let t := after (exec (.xor 3 1 1) (withRegs [(1, 0xDEADBEEF)]));
    t.reg 3 = 0 ∧ t.flags.n = false ∧ t.flags.z = true := by decide

theorem test_nor : let t := after (exec (.nor 3 1 2) (withRegs [(1, 0xFF00FF00), (2, 0x0FF00FF0)]));
    t.reg 3 = 0x000F000F ∧ t.flags.n = false ∧ t.flags.z = false := by decide

theorem test_slt : let t := after (exec (.slt 3 1 2) (withRegs [(1, 0x80000000), (2, 0x7FFFFFFF)]));
    t.reg 3 = 1 ∧ t.flags.n = false ∧ t.flags.z = false := by decide

theorem test_sltu : let t := after (exec (.sltu 3 1 2) (withRegs [(1, 0xFFFFFFFF), (2, 1)]));
    t.reg 3 = 0 ∧ t.flags.z = true := by decide

theorem test_sll_flags_of_one_place : let t := after (exec (.sll 3 1 31) (withRegs [(1, 1)]));
    t.reg 3 = 0x80000000 ∧ t.flags.c = false ∧ t.flags.n = false ∧ t.flags.z = false := by decide

theorem test_sll_all_zero_word : let t := after (exec (.sll 0 0 0) base);
    t.reg 0 = 0 ∧ t.flags.c = false ∧ t.flags.n = false ∧ t.flags.z = true := by decide

theorem test_srl : let t := after (exec (.srl 3 1 4) (withRegs [(1, 1)]));
    t.reg 3 = 0 ∧ t.flags.c = true ∧ t.flags.n = false ∧ t.flags.z = true := by decide

theorem test_sra_restores_bit_31 : let t := after (exec (.sra 3 1 4) (withRegs [(1, 0x80000000)]));
    t.reg 3 = 0x88000000 ∧ t.flags.c = false ∧ t.flags.n = true ∧ t.flags.z = false := by decide

theorem test_sra_fills_with_the_sign : let t := after (exec (.sra 3 1 31)
    { withRegs [(1, 0x80000000)] with variant := ⟨.isa, false⟩ });
    t.reg 3 = 0xFFFFFFFF ∧ t.flags.c = false ∧ t.flags.n = true ∧ t.flags.z = false := by decide

theorem test_rr : let t := after (exec (.rr 3 1 31) (withRegs [(1, 1)]));
    t.reg 3 = 2 ∧ t.flags = base.flags := by decide

theorem test_rr_by_zero : let t := after (exec (.rr 3 1 0) (withRegs [(1, 0x12345678)]));
    t.reg 3 = 0x12345678 ∧ t.flags = base.flags := by decide

theorem test_rb : let t := after (exec (.rb 3 1) (withRegs [(1, 0x12345678)]));
    t.reg 3 = 0x1E6A2C48 ∧ t.flags = base.flags := by decide +kernel

theorem test_rbo : let t := after (exec (.rbo 3 1) (withRegs [(1, 0x11223344)]));
    t.reg 3 = 0x44332211 ∧ t.flags = base.flags := by decide

theorem test_mult_minus_one : let t := after (exec (.mult 1 2) (withRegs [(1, 0xFFFFFFFF), (2, 1)]));
    t.hi = 0xFFFFFFFF ∧ t.lo = 0xFFFFFFFF ∧ t.flags.n = true ∧ t.flags.z = false := by decide

theorem test_mult_largest : let t := after (exec (.mult 1 2) (withRegs [(1, 0x80000000), (2, 0x80000000)]));
    t.hi = 0x40000000 ∧ t.lo = 0 ∧ t.flags.n = false ∧ t.flags.z = false := by decide

theorem test_div_truncates : let t := after (exec (.div 1 2) (withRegs [(1, 0xFFFFFFF9), (2, 2)]));
    t.hi = 0xFFFFFFFF ∧ t.lo = 0xFFFFFFFD ∧ t.flags.dbz = false ∧ t.flags.n = true ∧
    t.flags.z = false := by decide

theorem test_div_by_zero : let t := after (exec (.div 1 0) (withRegs [(1, 7)]));
    t.flags.dbz = true ∧ t.ended = none ∧ t.pc = 0x104 := by decide

theorem test_mfhi : let t := after (exec (.mfhi 6) { base with hi := 0xCAFEF00D, lo := 0x0BADBEEF });
    t.reg 6 = 0xCAFEF00D ∧ t.flags = base.flags := by decide

theorem test_mflo : let t := after (exec (.mflo 6) { base with hi := 0xCAFEF00D, lo := 0x0BADBEEF });
    t.reg 6 = 0x0BADBEEF ∧ t.flags = base.flags := by decide

theorem test_jr_unaligned : let t := after (exec (.jr 5) (withRegs [(5, 0x10010202)]));
    t.pc = 0x10010202 ∧ t.flags = base.flags := by decide

theorem test_jalr_links_and_falls_through : let t := after (exec (.jalr 5) (withRegs [(5, 0x200)]));
    t.reg 31 = 0x104 ∧ t.pc = 0x104 ∧ t.flags = base.flags := by decide

theorem test_jalr_jumps : let t := after (exec (.jalr 31) { withRegs [(31, 0x300)] with variant := ⟨.rtl, true⟩ });
    t.reg 31 = 0x104 ∧ t.pc = 0x300 ∧ t.flags = base.flags := by decide

theorem test_brk : let t := after (exec (.brk) base);
    t.ended = some .brk ∧ t.pc = 0x104 ∧ t.flags = base.flags := by decide

theorem test_setie : let t := after (exec (.setie) { base with flags := ⟨false, true, true, false, false, true⟩ });
    t.flags = ⟨false, false, true, false, false, true⟩ := by decide

theorem test_addi_negative : let t := after (exec (.addi 2 1 0x8000) (withRegs [(1, 0x80000000)]));
    t.reg 2 = 0x7FFF8000 ∧ t.flags.c = true ∧ t.flags.v = true ∧ t.flags.n = false ∧
    t.flags.z = false := by decide

theorem test_andi_zero_extends : let t := after (exec (.andi 2 1 0xFFFF) (withRegs [(1, 0xFFFFFFFF)]));
    t.reg 2 = 0x0000FFFF ∧ t.flags.n = false ∧ t.flags.z = false := by decide

theorem test_ori : let t := after (exec (.ori 2 1 0xFFFF) (withRegs [(1, 0x80000000)]));
    t.reg 2 = 0x8000FFFF ∧ t.flags.n = true ∧ t.flags.z = false := by decide

theorem test_xori_zero_extends : let t := after (exec (.xori 2 1 0xFFFF) (withRegs [(1, 0xFFFFFFFF)]));
    t.reg 2 = 0xFFFF0000 ∧ t.flags.n = true ∧ t.flags.z = false := by decide

theorem test_lui : let t := after (exec (.lui 2 0x8000) (withRegs [(2, 0x12345678)]));
    t.reg 2 = 0x80000000 ∧ t.flags.n = true ∧ t.flags.z = false := by decide

theorem test_slti : let t := after (exec (.slti 2 1 0xFFFF) (withRegs [(1, 0xFFFFFFFE)]));
    t.reg 2 = 1 ∧ t.flags.n = false ∧ t.flags.z = false := by decide

theorem test_sltiu_sign_extends : let t := after (exec (.sltiu 2 1 0xFFFF) base);
    t.reg 2 = 1 ∧ t.flags.z = false := by decide

theorem test_bsi : let t := after (exec (.bsi 2 1 0x0041) base);
    t.reg 2 = 2 ∧ t.flags = base.flags := by decide

theorem test_bsi_index_32 : let t := after (exec (.bsi 2 1 32) (withRegs [(1, 5)]));
    t.reg 2 = 5 ∧ t.flags = base.flags := by decide

theorem test_bci : let t := after (exec (.bci 2 1 31) (withRegs [(1, 0xFFFFFFFF)]));
    t.reg 2 = 0x7FFFFFFF ∧ t.flags = base.flags := by decide

theorem test_bci_index_33 : let t := after (exec (.bci 2 1 33) (withRegs [(1, 0xFFFFFFFF)]));
    t.reg 2 = 0xFFFFFFFF ∧ t.flags = base.flags := by decide

theorem test_beq_taken_backwards : let t := after (exec (.beq 0 0 (-66)) base);
    t.pc = 0xFFFFFFFC ∧ t.flags.c = false ∧ t.flags.v = false ∧ t.flags.n = false ∧
    t.flags.z = true := by decide

theorem test_beq_not_taken : let t := after (exec (.beq 1 2 3) (withRegs [(1, 9), (2, 10)]));
    t.pc = 0x104 ∧ t.flags.c = true ∧ t.flags.v = false ∧ t.flags.n = true ∧
    t.flags.z = false := by decide

theorem test_bne_taken : let t := after (exec (.bne 1 2 3) (withRegs [(1, 0x80000000), (2, 0x7FFFFFFF)]));
    t.pc = 0x110 ∧ t.flags.c = false ∧ t.flags.v = true ∧ t.flags.n = false ∧
    t.flags.z = false := by decide

theorem test_bne_not_taken : let t := after (exec (.bne 1 2 (-4)) (withRegs [(1, 9), (2, 9)]));
    t.pc = 0x104 ∧ t.flags.c = false ∧ t.flags.v = false ∧ t.flags.n = false ∧
    t.flags.z = true := by decide

theorem test_blez_at_zero : let t := after (exec (.blez 1 3) base);
    t.pc = 0x110 ∧ t.flags.n = false ∧ t.flags.z = true := by decide

theorem test_blez_not_taken : let t := after (exec (.blez 1 3) (withRegs [(1, 1)]));
    t.pc = 0x104 ∧ t.flags.n = false ∧ t.flags.z = false := by decide

theorem test_bgtz_taken : let t := after (exec (.bgtz 1 3) (withRegs [(1, 1)]));
    t.pc = 0x110 ∧ t.flags.n = false ∧ t.flags.z = false := by decide

theorem test_bgtz_at_zero : let t := after (exec (.bgtz 1 3) base);
    t.pc = 0x104 ∧ t.flags.n = false ∧ t.flags.z = true := by decide

theorem test_bgez_at_zero : let t := after (exec (.bgez 1 3) base);
    t.pc = 0x110 ∧ t.flags.n = false ∧ t.flags.z = true := by decide

theorem test_bgez_not_taken : let t := after (exec (.bgez 1 3) (withRegs [(1, 0x80000000)]));
    t.pc = 0x104 ∧ t.flags.n = true ∧ t.flags.z = false := by decide

theorem test_bltz_taken : let t := after (exec (.bltz 1 3) (withRegs [(1, 0x80000000)]));
    t.pc = 0x110 ∧ t.flags.n = true ∧ t.flags.z = false := by decide

theorem test_bltz_at_zero : let t := after (exec (.bltz 1 3) base);
    t.pc = 0x104 ∧ t.flags.n = false ∧ t.flags.z = true := by decide

theorem test_bdt_taken : let t := after (exec (.bdt 3)
    { base with flags := ⟨true, false, false, false, false, false⟩ });
    t.pc = 0x110 := by decide

theorem test_bdt_not_taken : let t := after (exec (.bdt 3) base); t.pc = 0x104 := by decide

theorem test_bdf_taken : let t := after (exec (.bdf 3) base); t.pc = 0x110 := by decide

theorem test_bdf_not_taken : let t := after (exec (.bdf (-2))
    { base with flags := ⟨true, false, false, false, false, false⟩ });
    t.pc = 0x104 := by decide

/-- Data memory of 95 section 3.8, with bytes at the top of the memory. -/
def data : Memory := memOf [(0xC0, 0x11223344), (0xC4, 0x55667788), (0xFFF, 0xA4B1B2B3), (0, 0xC0C1C2C3)]

theorem test_lw_drops_upper_address_bits : let t := after (exec (.lw 2 1 4)
    { withRegs [(1, 0x100100C0)] with dmem := data });
    t.reg 2 = 0x55667788 ∧ t.flags.c = false ∧ t.flags.v = false ∧ t.flags.n = false ∧
    t.flags.z = false := by decide

theorem test_lw_overhang : let t := after (exec (.lw 2 1 0xFFFF) { base with dmem := data });
    t.reg 2 = 0xA4B1B2B3 ∧ t.flags.c = false ∧ t.flags.v = false ∧ t.flags.n = true ∧
    t.flags.z = false := by decide

theorem test_sw_misaligned : let t := after (exec (.sw 2 1 1)
    { withRegs [(1, 0xC0), (2, 0xAABBCCDD)] with dmem := data });
    t.dmem.byte? 0xC0 = some 0x11 ∧ t.dmem.byte? 0xC1 = some 0xAA ∧ t.dmem.byte? 0xC4 = some 0xDD ∧
    t.dmem.byte? 0xC5 = some 0x66 := by decide

theorem test_sw_overhang : let t := after (exec (.sw 2 1 0)
    { withRegs [(1, 0xFFE), (2, 0xAABBCCDD)] with dmem := data });
    t.dmem.byte? 0xFFF = some 0xBB ∧ t.dmem.byte? 0x1001 = some 0xDD ∧
    t.dmem.byte? 0 = some 0xC0 := by decide

theorem test_j_keeps_the_upper_bits : let t := after (exec (.j 0x40) { base with pc := 0xA0000104 });
    t.pc = 0xA0000100 ∧ t.flags = base.flags := by decide

theorem test_jal : let t := after (exec (.jal 0x3CDEF01) base);
    t.reg 31 = 0x104 ∧ t.pc = 0x0F37BC04 ∧ t.flags = base.flags := by decide

theorem test_input : let t := after (exec (.input 2 1 0)
    { withRegs [(1, 0xC0)] with dmem := data, iomem := memOf [(0xC0, 0xCAFEBABE)] });
    t.reg 2 = 0xCAFEBABE ∧ t.flags.c = false ∧ t.flags.v = false ∧ t.flags.n = false ∧
    t.flags.z = false := by decide

theorem test_output : let t := after (exec (.output 2 1 0xFFFC) (withRegs [(2, 0x01020304)]));
    t.iomem = memOf [(0xFFC, 0x01020304)] ∧ t.dmem = ⟨[]⟩ ∧ t.flags.c = false ∧ t.flags.v = false ∧
    t.flags.n = true ∧ t.flags.z = false := by decide

theorem test_reti : let t := after (exec (.reti)
    { withRegs [(29, 0x3F4)] with dmem := memOf [(0x3F4, 0x0000003F), (0x3F8, 0x00000240)], intAck := true });
    t.reg 29 = 0x3FC ∧ t.pc = 0x240 ∧ t.flags = ⟨true, true, true, true, true, true⟩ ∧
    t.intAck = true := by decide

theorem test_reti_ignores_upper_bits : let t := after (exec (.reti)
    { withRegs [(29, 0x3F4)] with dmem := memOf [(0x3F4, 0xFFFFFFC0), (0x3F8, 0x1234567A)] });
    t.pc = 0x1234567A ∧ t.flags = ⟨false, false, false, false, false, false⟩ := by decide

theorem test_add8 : let t := after (exec (.add8 3 1 2) (withRegs [(1, 0xFF80017F), (2, 0x01800101)]));
    t.reg 3 = 0x00000280 ∧ t.flags = base.flags := by decide

theorem test_add16 : let t := after (exec (.add16 3 1 2) (withRegs [(1, 0xFF80017F), (2, 0x01800101)]));
    t.reg 3 = 0x01000280 ∧ t.flags = base.flags := by decide

theorem test_sub8 : let t := after (exec (.sub8 3 1 2) (withRegs [(1, 0x00800100), (2, 0x01010101)]));
    t.reg 3 = 0xFF7F00FF ∧ t.flags = base.flags := by decide

theorem test_sub16 : let t := after (exec (.sub16 3 1 2) (withRegs [(1, 0x00800100), (2, 0x01010101)]));
    t.reg 3 = 0xFF7FFFFF ∧ t.flags = base.flags := by decide

theorem test_and8 : let t := after (exec (.and8 3 1 2) (withRegs [(1, 0xF0F0FF00), (2, 0x3C3C0FF0)]));
    t.reg 3 = 0x30300F00 ∧ t.flags = base.flags := by decide

theorem test_or8 : let t := after (exec (.or8 3 1 2) (withRegs [(1, 0xF0F0FF00), (2, 0x3C3C0FF0)]));
    t.reg 3 = 0xFCFCFFF0 ∧ t.flags = base.flags := by decide

theorem test_xor8 : let t := after (exec (.xor8 3 1 2) (withRegs [(1, 0xF0F0FF00), (2, 0x3C3C0FF0)]));
    t.reg 3 = 0xCCCCF0F0 ∧ t.flags = base.flags := by decide

theorem test_not8 : let t := after (exec (.not8 3 1) (withRegs [(1, 0xF0F0FF00)]));
    t.reg 3 = 0x0F0F00FF ∧ t.flags = base.flags := by decide

theorem test_vmfhi8 : let t := after (exec (.vmfhi8 4) { base with vhi := 0x89ABCDEF, vlo := 0x01234567 });
    t.reg 4 = 0x89ABCDEF ∧ t.flags = base.flags := by decide

theorem test_vmflo8 : let t := after (exec (.vmflo8 4) { base with vhi := 0x89ABCDEF, vlo := 0x01234567 });
    t.reg 4 = 0x01234567 ∧ t.flags = base.flags := by decide

theorem test_and16 : let t := after (exec (.and16 3 1 2) (withRegs [(1, 0xF0F0FF00), (2, 0x3C3C0FF0)]));
    t.reg 3 = 0x30300F00 ∧ t.flags = base.flags := by decide

theorem test_or16 : let t := after (exec (.or16 3 1 2) (withRegs [(1, 0xF0F0FF00), (2, 0x3C3C0FF0)]));
    t.reg 3 = 0xFCFCFFF0 ∧ t.flags = base.flags := by decide

theorem test_xor16 : let t := after (exec (.xor16 3 1 2) (withRegs [(1, 0xF0F0FF00), (2, 0x3C3C0FF0)]));
    t.reg 3 = 0xCCCCF0F0 ∧ t.flags = base.flags := by decide

theorem test_not16 : let t := after (exec (.not16 3 1) (withRegs [(1, 0xF0F0FF00)]));
    t.reg 3 = 0x0F0F00FF ∧ t.flags = base.flags := by decide

theorem test_vmfhi16 : let t := after (exec (.vmfhi16 4) { base with vhi := 0x89ABCDEF, vlo := 0x01234567 });
    t.reg 4 = 0x89ABCDEF ∧ t.flags = base.flags := by decide

theorem test_vmflo16 : let t := after (exec (.vmflo16 4) { base with vhi := 0x89ABCDEF, vlo := 0x01234567 });
    t.reg 4 = 0x01234567 ∧ t.flags = base.flags := by decide

theorem test_mul8_unsigned : let t := after (exec (.mul8 1 2) (withRegs [(1, 0xFF10027F), (2, 0xFF100302)]));
    t.vhi = 0xFE010100 ∧ t.vlo = 0x000600FE ∧ t.flags = base.flags := by decide

theorem test_mul16_unsigned : let t := after (exec (.mul16 1 2) (withRegs [(1, 0xFFFF0100), (2, 0xFFFF0100)]));
    t.vhi = 0xFFFE0001 ∧ t.vlo = 0x00010000 ∧ t.flags = base.flags := by decide

theorem test_div8 : let t := after (exec (.div8 1 2) (withRegs [(1, 0xFF64070A), (2, 0x10070203)]));
    t.vhi = 0x0F0F020E ∧ t.vlo = 0x01030103 ∧ t.flags = base.flags := by decide

theorem test_div8_zero_lane : let t := after (exec (.div8 1 2) (withRegs [(1, 0x0A0A0A0A), (2, 0x03000302)]));
    t.vlo = 0x01030005 ∧ t.ended = none ∧ t.flags = base.flags := by decide

theorem test_div16 : let t := after (exec (.div16 1 2) (withRegs [(1, 0xFFFF03E8), (2, 0x01000007)]));
    t.vhi = 0x00FF00FF ∧ t.vlo = 0x0006008E ∧ t.flags = base.flags := by decide

theorem test_div16_zero_lane : let t := after (exec (.div16 1 2) (withRegs [(1, 0x00640064), (2, 0x00030000)]));
    t.vhi = 0x00010021 ∧ t.ended = none ∧ t.flags = base.flags := by decide

/-! ### Steps: the interrupt (95 section 4, trace A), reset and the ends of a run -/

/-- The machine of trace A before boundary 2: interrupts enabled, the vector in place, the line about to rise. -/
def traceA : State :=
  { base with
    pc := 8
    flags := ⟨false, true, false, false, false, false⟩
    imem := memOf [(0x40, 0x740100C0), (0x44, 0x2005FFFF), (0x48, 0x78000000)]
    dmem := memOf [(0x3FC, 0x40)]
    hostMoves := [level true, level true, level false, level false] }

/-- Trace A after boundary 2: the entry has been taken. -/
def traceA3 : State := after (step traceA)

theorem test_interrupt_entry : traceA3.pc = 0x40 ∧ traceA3.reg 29 = 0x3F4 ∧ traceA3.flags.ie = false ∧
    traceA3.intAck = true ∧ traceA3.dmem = memOf [(0x3F4, 0x10), (0x3F8, 8), (0x3FC, 0x40)] := by decide

theorem test_interrupt_handler_runs_and_acknowledges : let t := after (step traceA3); let u := after (step t);
    t.pc = 0x44 ∧ t.intAck = true ∧ u.pc = 0x48 ∧ u.intAck = false ∧ u.reg 5 = 0xFFFFFFFF := by decide

theorem test_interrupt_return : let t := after (Sys2Proof.core.run 3 traceA3);
    t.pc = 8 ∧ t.reg 29 = 0x3FC ∧ t.flags = traceA.flags := by decide

/-- Trace C, boundary 5: a masked request blocks the fetch. -/
theorem test_masked_request_blocks : let s := { traceA3 with intAck := false };
    after (step s) = { s with hostMoves := s.hostMoves.tail } := by decide

theorem test_illegal_word_ends_the_run : let t := after (step (fetching 0x00221804));
    t.ended = some .illegalOp ∧ t.pc = 0x104 ∧ t.ir = 0x00221804 := by decide

theorem test_vtype_mode_hangs : let t := after (step (fetching 0x7C221FC0));
    t.ended = some .stuckVtypeMode ∧ t.pc = 0x104 := by decide

theorem test_no_step_after_the_end : step (after (step (fetching 0x0000000D))) = .fault (.brk 0x104) := rfl

theorem test_reset_pulse : let t := after (step { traceA with ended := some .brk, hostMoves := [⟨false, [], true⟩] });
    t.pc = 0 ∧ t.ended = none ∧ t.flags.ie = false ∧ t.reg 29 = 0x3FC ∧ t.dmem = traceA.dmem := by decide

/-- The host changes I/O memory before a step; an index that is no byte of it names nothing. -/
theorem test_host_writes_io : let s := { fetching 0x70020000 with hostMoves := [⟨false, [(0, 0xAB), (1, 0xCD),
      (2, 0xEF), (3, 0x01), (4099, 0xFF)], false⟩] };
    (after (step s)).reg 2 = 0xABCDEF01 ∧ (after (step s)).iomem.byte? 4099 = none := by decide

theorem test_first_instruction_after_reset :
    (after (step (State.reset.withFetchWord 32 0x3C011234))).reg 1 = 0x12340000 := by decide

/-- The images are loaded: the last byte named for an index counts, index 4099 is none, and the program runs. -/
theorem test_start_loads_the_images : let s := State.start ⟨⟨.isa, true⟩,
      [(3, 0x34), (0, 0x3C), (1, 0x01), (2, 0x12), (3, 0x35)], [(4098, 0xAB), (4099, 0xCD)], [], []⟩;
    (after (step s)).reg 1 = 0x12350000 ∧ s.dmem = ⟨[(4098, 0xAB)]⟩ ∧ s.iomem = ⟨[]⟩ ∧
    (after (step s)).variant = ⟨.isa, true⟩ := by decide

/-! ### Witnesses: states and operands that meet the hypotheses of the obligations -/

theorem witness_DecodeUndoesEncode : (Instr.sll 3 1 31).wellFormed = true ∧ (Instr.bne 1 2 (-32768)).wellFormed = true ∧
    (Instr.bdt 32767).wellFormed = true := by decide

theorem witness_EncodeOfDecodedClearsIgnoredFields : decodeWord 0x00221FE0 = .ok (.add 3 1 2) ∧
    encode (.add 3 1 2) = 0x00221FE0 &&& ~~~ignoredBits 0x00221FE0 := by decide

theorem witness_DecodedInstructionIsWellFormed :
    decode [0x15, 0xA0, 0x80, 0x00, 0x77] = .ok (.bne 13 0 (-32768), [0x77]) := by decide

theorem witness_StepKeepsTheInvariant : (fetching 0xAC220004).Inv ∧ ∃ t, step (fetching 0xAC220004) = .next t := by
  unfold State.Inv
  exact ⟨by decide, _, rfl⟩

theorem witness_ResetPulseRestartsTheMachine :
    ({ traceA with ended := some .brk, hostMoves := [⟨true, [], true⟩] } : State).hostMove.reset = true := by
  decide

/-- The hypotheses of a step that fetches the word `w`, met with the line low, and with the line high after the
acknowledge. -/
def stepHyps (w : Word) : Prop :=
  ((fetching w.toNat).Runs ∧ (fetching w.toNat).FetchAllowed ∧
    HoldsWord (fetching w.toNat).imem (idx (fetching w.toNat).pc) w) ∧
  (({ fetching w.toNat with intr := true, intAck := true } : State).Runs ∧
    ({ fetching w.toNat with intr := true, intAck := true } : State).FetchAllowed ∧
    HoldsWord (fetching w.toNat).imem (idx (fetching w.toNat).pc) w)

theorem witness_StepRunsTheDecodedInstruction : stepHyps 0x00221820 ∧ decodeWord 0x00221820 = .ok (.add 3 1 2) := by
  unfold stepHyps State.Runs State.FetchAllowed HoldsWord
  decide

/-- At the top of instruction memory the word runs into the overhang bytes. -/
theorem witness_StepRunsTheDecodedInstruction_overhang :
    let s := ({ base with pc := 0xFFFFFFFF } : State).withFetchWord 32 0x00221820;
    s.Runs ∧ s.FetchAllowed ∧ HoldsWord s.imem (idx s.pc) 0x00221820 := by
  unfold State.Runs State.FetchAllowed HoldsWord
  decide

/-- One word for each of the three causes of R260. -/
theorem witness_IllegalWordEndsTheRun_funct :
    stepHyps 0x00221804 ∧ opField 0x00221804 = 0x00 ∧ functField 0x00221804 ∉ rTypeFuncts := by
  unfold stepHyps State.Runs State.FetchAllowed HoldsWord
  decide

theorem witness_IllegalWordEndsTheRun_quad8 : stepHyps 0x7C221801 ∧ opField 0x7C221801 = 0x1F ∧
    mselField 0x7C221801 = 0b01 ∧ vfsField 0x7C221801 ∉ vTypeFuncts := by
  unfold stepHyps State.Runs State.FetchAllowed HoldsWord
  decide

theorem witness_IllegalWordEndsTheRun_dual16 : stepHyps 0x7C221FC2 ∧ opField 0x7C221FC2 = 0x1F ∧
    mselField 0x7C221FC2 = 0b10 ∧ vfsField 0x7C221FC2 ∉ vTypeFuncts := by
  unfold stepHyps State.Runs State.FetchAllowed HoldsWord
  decide

theorem witness_IllegalWordEndsTheRun_major : stepHyps 0xFC221234 ∧ opField 0xFC221234 ≠ 0x00 ∧
    opField 0xFC221234 ≠ 0x1F ∧ opField 0xFC221234 ∉ majorOpcodes := by
  unfold stepHyps State.Runs State.FetchAllowed HoldsWord
  decide

/-- Both mode values; and what follows with and without a reset pulse at the next boundary. -/
theorem witness_VtypeModeHangsTheMachine_00 :
    stepHyps 0x7C221880 ∧ opField 0x7C221880 = 0x1F ∧ mselField 0x7C221880 = 0b00 := by
  unfold stepHyps State.Runs State.FetchAllowed HoldsWord
  decide

theorem witness_VtypeModeHangsTheMachine_11 :
    stepHyps 0x7C221883 ∧ opField 0x7C221883 = 0x1F ∧ mselField 0x7C221883 = 0b11 := by
  unfold stepHyps State.Runs State.FetchAllowed HoldsWord
  decide

theorem witness_VtypeModeHangsTheMachine_next :
    (after (step (fetching 0x7C221880))).hostMove.reset = false ∧
    (after (step { fetching 0x7C221880 with hostMoves := [level false, ⟨false, [], true⟩] })).hostMove.reset = true := by
  decide

/-- An ended machine; a running one that comes to its end; one whose fetch is blocked. -/
theorem witness_RunEndsInExactlyTheThreeCases :
    (({ base with ended := some .brk } : State).hostMove.reset = false ∧
      ({ base with ended := some .brk } : State).ended ≠ none) ∧
    ((fetching 0x0000000D).hostMove.reset = false ∧ (fetching 0x0000000D).ended = none ∧
      (after (step (fetching 0x0000000D))).ended ≠ none) ∧
    (let s := { base with intr := true }; s.hostMove.reset = false ∧ s.ended = none ∧ ¬ s.FetchAllowed ∧
      s.flags.ie = false) := by
  unfold State.FetchAllowed
  decide

theorem witness_InterruptEntryPushesFrameAndVectors : traceA.Runs ∧ traceA.intAck = false ∧
    traceA.hostMove.intr = true ∧ traceA.flags.ie = true := by
  unfold State.Runs
  decide

/-- A blocked state: the line held high over two planned boundaries, the host writing I/O memory at one of them. -/
def blocked : State := { base with hostMoves := [level true, ⟨true, [(7, 0xAA)], false⟩] }

/-- Fewer boundaries than the list plans, more than it plans, and none planned with the line high. -/
theorem witness_MaskedRequestBlocksTheFetch :
    (blocked.ended = none ∧ blocked.flags.ie = false ∧ blocked.intAck = false ∧
      (∀ m ∈ blocked.hostMoves.take 1, m.intr = true ∧ m.reset = false) ∧ blocked.hostMoves ≠ []) ∧
    (∀ m ∈ blocked.hostMoves.take 5, m.intr = true ∧ m.reset = false) ∧
    (({ base with intr := true } : State).hostMoves = [] ∧ ({ base with intr := true } : State).intr = true) ∧
    (∀ m ∈ blocked.hostMoves.take 5, lastNamed m.ioWrites 8 = none) := by decide

/-- The first and the last byte of I/O memory named, one of them twice; a byte not named; an index that is none. -/
theorem witness_HostMoveChangesOnlyItsOwn :
    let s := { base with hostMoves := [⟨false, [(0, 0x11), (4098, 0x22), (0, 0x33), (4099, 0x44)], false⟩] };
    (0 < memBytes ∧ lastNamed s.hostMove.ioWrites 0 = some 0x33) ∧
    (4098 < memBytes ∧ lastNamed s.hostMove.ioWrites 4098 = some 0x22) ∧ lastNamed s.hostMove.ioWrites 5 = none ∧
    memBytes ≤ 4099 := by decide

theorem witness_StartHoldsItsParameters : 4098 < memBytes ∧ memBytes ≤ 4099 := by decide

/-- Each case of the latch: a reset pulse, a latch that is set with the line high and low, an entry, and a fetch. -/
theorem witness_AcknowledgeLatchFollowsEntryAndLine :
    (∃ t, step { base with hostMoves := [⟨true, [], true⟩] } = .next t) ∧
    (∃ t, step { fetching 0x0000001F with intAck := true, intr := true } = .next t) ∧
    (∃ t, step { fetching 0x0000001F with intAck := true } = .next t) ∧ (∃ t, step traceA = .next t) ∧
    (∃ t, step (fetching 0x0000001F) = .next t) ∧
    ({ fetching 0x0000001F with intAck := true } : State).Runs :=
  ⟨⟨_, rfl⟩, ⟨_, rfl⟩, ⟨_, rfl⟩, ⟨_, rfl⟩, ⟨_, rfl⟩, rfl, rfl⟩

/-- The handler returns at once: `u` is the state right after the entry. -/
theorem witness_RetiUndoesInterruptEntry : traceA.Runs ∧ traceA.intAck = false ∧ traceA.hostMove.intr = true ∧
    traceA.flags.ie = true ∧ step traceA = .next traceA3 ∧ traceA3.reg 29 = traceA3.reg 29 :=
  ⟨⟨rfl, rfl⟩, rfl, rfl, rfl, rfl, rfl⟩

/-- An instruction completes, for the statements about every next state of `exec`. -/
theorem witness_exec_next : (∃ t, exec (.add 3 1 2) base = .next t) ∧ (∃ t, exec (.sw 2 1 0) base = .next t) ∧
    (∃ t, exec (.output 2 1 0) base = .next t) ∧ (∃ t, exec (.mult 1 2) base = .next t) ∧
    (∃ t, exec (.mul8 1 2) base = .next t) ∧ (∃ t, exec .reti base = .next t) :=
  ⟨⟨_, rfl⟩, ⟨_, rfl⟩, ⟨_, rfl⟩, ⟨_, rfl⟩, ⟨_, rfl⟩, ⟨_, rfl⟩⟩

theorem witness_InstructionMemoryIsNeverWritten : (∃ t, step (fetching 0xAC220004) = .next t) ∧
    ∃ t, exec (.sw 2 1 4) base = .next t := ⟨⟨_, rfl⟩, ⟨_, rfl⟩⟩

theorem witness_OnlySwAndOutputWriteMemory : (∃ t, exec (.output 2 1 0) base = .next t) ∧
    (∀ rt rs imm, Instr.output 2 1 0 ≠ .sw rt rs imm) ∧ (∃ t, exec (.sw 2 1 0) base = .next t) ∧
    (∀ rt rs imm, Instr.sw 2 1 0 ≠ .output rt rs imm) :=
  ⟨⟨_, rfl⟩, by simp, ⟨_, rfl⟩, by simp⟩

theorem witness_OnlyMultiplyAndDivideWriteTheHiLoPairs : (∃ t, exec (.mul8 1 2) base = .next t) ∧
    (∀ rs rt, Instr.mul8 1 2 ≠ .mult rs rt ∧ Instr.mul8 1 2 ≠ .div rs rt) ∧ (∃ t, exec (.mult 1 2) base = .next t) ∧
    (∀ rs rt, Instr.mult 1 2 ≠ .mul8 rs rt ∧ Instr.mult 1 2 ≠ .mul16 rs rt ∧ Instr.mult 1 2 ≠ .div8 rs rt ∧
      Instr.mult 1 2 ≠ .div16 rs rt) :=
  ⟨⟨_, rfl⟩, fun _ _ => ⟨nofun, nofun⟩, ⟨_, rfl⟩,
    fun _ _ => ⟨nofun, nofun, nofun, nofun⟩⟩

theorem witness_FlagWritersAreAsListed : (∃ t, exec (.rr 3 1 4) base = .next t) ∧ leavesFlags (.rr 3 1 4) = true ∧
    (∃ t, exec (.add 3 1 2) base = .next t) ∧ Instr.add 3 1 2 ≠ .setie ∧ Instr.add 3 1 2 ≠ .reti :=
  ⟨⟨_, rfl⟩, rfl, ⟨_, rfl⟩, nofun, nofun⟩

theorem witness_OnlyTheDestinationRegisterChanges : (∃ t, exec (.reti) base = .next t) ∧
    destReg? .reti ≠ some 28 := ⟨⟨_, rfl⟩, by decide⟩

/-- Both alternatives: BDT with C and V changed, and ADD with every flag changed. -/
theorem witness_CarryAndOverflowAreNotRead : (∃ t, exec (.bdt 3) base = .next t) ∧
    ((⟨false, false, true, true, false, false⟩ : Flags).dbz = base.flags.dbz ∧
      (⟨false, false, true, true, false, false⟩ : Flags).ie = base.flags.ie) ∧
    (∃ t, exec (.add 3 1 2) base = .next t) ∧
    (∀ off, Instr.add 3 1 2 ≠ .bdt off ∧ Instr.add 3 1 2 ≠ .bdf off) ∧ Instr.add 3 1 2 ≠ .setie :=
  ⟨⟨_, rfl⟩, ⟨rfl, rfl⟩, ⟨_, rfl⟩, fun _ => ⟨nofun, nofun⟩, nofun⟩

/-- Two addresses that agree in their low 12 bits, the store misaligned and running into the overhang bytes. -/
theorem witness_LoadReturnsTheStoredWord : let s := withRegs [(1, 0x10010FFE), (3, 0x00000000), (2, 0xAABBCCDD)];
    (s.reg 1 + sext16 1).toNat % 4096 = (s.reg 3 + sext16 0xFFFF).toNat % 4096 ∧
    (after (exec (.lw 4 3 0xFFFF) (after (exec (.sw 2 1 1) s)))).reg 4 = 0xAABBCCDD ∧
    (after (exec (.input 4 3 0xFFFF) (after (exec (.output 2 1 1) s)))).reg 4 = 0xAABBCCDD := by decide

/-- Words that agree in bits 5 to 0 and differ above; the lowest bit above the flags. -/
theorem witness_FlagsWordLayout : (0xFFFFFFD9 : Word) &&& 0x3F = 0x19 &&& 0x3F ∧
    (flagsWord ⟨false, true, true, false, false, true⟩).getLsbD 6 = false := by decide

theorem witness_LogicalShiftResults : (0 < 32 ∧ 31 < 32) ∧ (after (exec (.sll 3 1 0) (withRegs [(1, 5)]))).reg 3 = 5 ∧
    (after (exec (.srl 3 1 31) (withRegs [(1, 0x80000000)]))).reg 3 = 1 := by decide

/-- Both values of SRA_FILL; the amounts 0 and 31; an amount of at most 1, and an operand that is not negative. -/
theorem witness_ArithmeticShiftResult : (0 < 32 ∧ 31 < 32 ∧ 1 ≤ 1) ∧ base.variant.sraFill = .rtl ∧
    ({ base with variant := ⟨.isa, false⟩ } : State).variant.sraFill = .isa ∧
    ((withRegs [(1, 0x7FFFFFF0)]).reg 1).msb = false ∧
    (after (exec (.sra 3 1 1) (withRegs [(1, 0x80000000)]))).reg 3 = (0x80000000 : Word).sshiftRight 1 ∧
    (after (exec (.sra 3 1 31) (withRegs [(1, 0x80000000)]))).reg 3 = 0x80000001 := by decide

theorem witness_RotateRightResult : 31 < 32 ∧ (after (exec (.rr 3 1 31) (withRegs [(1, 1)]))).reg 3 = 2 := by
  decide

theorem witness_BitAndByteReversalResults : (3 : RegNum) ≠ 0 ∧
    (after (exec (.rb 3 3) (after (exec (.rb 3 1) (withRegs [(1, 0x12345678)]))))).reg 3 = 0x12345678 := by
  decide +kernel

/-- The three cases of DIV: a zero divisor, the overflowing division, and the least dividend with another divisor. -/
theorem witness_DivResult : (withRegs [(1, 7)]).reg 2 = 0 ∧
    ((withRegs [(1, 0x80000000), (2, 0xFFFFFFFF)]).reg 1 = 0x80000000 ∧
      (withRegs [(1, 0x80000000), (2, 0xFFFFFFFF)]).reg 2 = 0xFFFFFFFF) ∧
    (let s := withRegs [(1, 0x80000000), (2, 1)]; s.reg 2 ≠ 0 ∧ ¬ (s.reg 1 = 0x80000000 ∧ s.reg 2 = 0xFFFFFFFF)) := by
  decide

theorem witness_BreakEndsTheRun : (after (exec .brk base)).hostMove.reset = false := by decide

/-- Taken and not taken for BEQ and BNE, whose conditions exclude each other. -/
theorem witness_CompareBranchResults : (withRegs [(1, 9), (2, 9)]).reg 1 = (withRegs [(1, 9), (2, 9)]).reg 2 ∧
    (withRegs [(1, 9), (2, 10)]).reg 1 ≠ (withRegs [(1, 9), (2, 10)]).reg 2 := by decide

/-- The three signs of the zero branches' operand. -/
theorem witness_ZeroBranchResults : 0 < ((withRegs [(1, 1)]).reg 1).toInt ∧ (base.reg 1).toInt = 0 ∧
    ((withRegs [(1, 0x80000000)]).reg 1).toInt < 0 := by decide

theorem witness_DivideByZeroBranchResults : base.flags.dbz = false ∧
    ({ base with flags := ⟨true, false, false, false, false, false⟩ } : State).flags.dbz = true := by decide

/-- A lane with a divisor and a lane without, at the highest lanes. -/
theorem witness_VectorDivideResults :
    (lane8 ((withRegs [(2, 0x10000000)]).reg 2) 3 ≠ 0 ∧ lane8 ((withRegs [(2, 0x10000000)]).reg 2) 0 = 0) ∧
    (lane16 ((withRegs [(2, 0x00030000)]).reg 2) 1 ≠ 0 ∧ lane16 ((withRegs [(2, 0x00030000)]).reg 2) 0 = 0) := by
  decide

end Sys2Proof.Tests
end

section
/-! SUPPORT. What an instruction's meaning can be, said once: thirteen forms, built from the state's operations, of
which every arm of `exec` is one (40 to 44). -/

namespace Sys2Proof.Machine

/-! ### Values that do not depend on the flags (R39) -/

/-- What `g` computes is the same whatever the flags are. -/
def FlagBlind {α : Type} (g : State → α) : Prop := ∀ (s : State) (f : Flags), g (s.setFlags f) = g s

/-- The instruction's flags are the ALU's outputs: it is not on the list of R38 and is neither SETIE nor RETI. -/
def WritesStatus (i : Instr) : Prop := leavesFlags i = false ∧ i ≠ .setie ∧ i ≠ .reti

theorem WritesStatus.ne_brk {i : Instr} (h : WritesStatus i) : i ≠ .brk := by
  rintro rfl
  exact absurd h.1 (by decide)

/-! ### The forms -/

/-- The forms of a meaning. Every value that a form leaves open is computed from the state before, but not from its
flags. The instructions that read a flag, write memory, return from the interrupt or end the run are named. -/
inductive ExecForm : Instr → Prop where
  /-- One register is written. -/
  | move {i : Instr} (d : RegNum) (y : State → Word) (h : ∀ s, exec i s = .next (s.setReg d (y s)))
      (blind : FlagBlind y) (dest : destReg? i = some d) (leaves : leavesFlags i = true) : ExecForm i
  /-- The status flags and one register are written. -/
  | alu {i : Instr} (d : RegNum) (o : State → StatusOut) (y : State → Word)
      (h : ∀ s, exec i s = .next ((s.setStatus (o s)).setReg d (y s)))
      (blind : FlagBlind o ∧ FlagBlind y) (dest : destReg? i = some d) (writes : WritesStatus i) : ExecForm i
  /-- As `alu`, the register being given a word read from memory. -/
  | load {i : Instr} (d : RegNum) (o : State → StatusOut) (y : State → Word)
      (h : ∀ s, exec i s = .next (((s.setStatus (o s)).drew wordDraws).setReg d (y s)))
      (blind : FlagBlind o ∧ FlagBlind y) (dest : destReg? i = some d) (writes : WritesStatus i) : ExecForm i
  /-- The status flags are written and the branch is taken or not. -/
  | branch {i : Instr} (o : State → StatusOut) (taken : State → Bool) (off : Int)
      (h : ∀ s, exec i s = .next ((s.setStatus (o s)).branchIf (taken s) off))
      (blind : FlagBlind o ∧ FlagBlind taken) (dest : destReg? i = none) (writes : WritesStatus i) : ExecForm i
  /-- `pc` is written. -/
  | jump {i : Instr} (a : State → Word) (h : ∀ s, exec i s = .next (s.setPc (a s)))
      (blind : FlagBlind a) (dest : destReg? i = none) (leaves : leavesFlags i = true) (runs : i ≠ .brk) : ExecForm i
  /-- The link is written to `$ra`, then `pc` is written. -/
  | link {i : Instr} (a : State → Word) (h : ∀ s, exec i s = .next ((s.setReg raReg s.pc).setPc (a s)))
      (blind : FlagBlind a) (dest : destReg? i = some raReg) (leaves : leavesFlags i = true) : ExecForm i
  /-- `hi`, `lo` and the status flags are written, after a number of draws. -/
  | hiLo {i : Instr} (h l : State → Word) (n : State → Nat) (o : State → StatusOut)
      (eq : ∀ s, exec i s = .next (((s.setHiLo (h s) (l s)).drew (n s)).setStatus (o s)))
      (blind : FlagBlind h ∧ FlagBlind l ∧ FlagBlind n ∧ FlagBlind o) (dest : destReg? i = none)
      (writes : WritesStatus i) : ExecForm i
  /-- `vhi` and `vlo` are written, with a number of draws. -/
  | vHiLo {i : Instr} (h l : State → Word) (n : Nat) (eq : ∀ s, exec i s = .next ((s.setVHiLo (h s) (l s)).drew n))
      (blind : FlagBlind h ∧ FlagBlind l) (dest : destReg? i = none) (leaves : leavesFlags i = true)
      (runs : i ≠ .brk) : ExecForm i
  | sw (rt rs : RegNum) (imm : BitVec 16) : ExecForm (.sw rt rs imm)
  | output (rt rs : RegNum) (imm : BitVec 16) : ExecForm (.output rt rs imm)
  | bdt (off : Int) : ExecForm (.bdt off)
  | bdf (off : Int) : ExecForm (.bdf off)
  | setie : ExecForm .setie
  | reti : ExecForm .reti
  | brk : ExecForm .brk

/-! ### The named instructions' equations -/

theorem exec_sw (rt rs : RegNum) (imm : BitVec 16) (s : State) : exec (.sw rt rs imm) s =
    .next ((s.setStatus (flAdd (s.reg rs) (sext16 imm))).setDmemWord (s.reg rs + sext16 imm) (s.reg rt)) := rfl
theorem exec_output (rt rs : RegNum) (imm : BitVec 16) (s : State) : exec (.output rt rs imm) s =
    .next ((s.setStatus (flAdd (s.reg rs) (sext16 imm))).setIomemWord (s.reg rs + sext16 imm) (s.reg rt)) := rfl
theorem exec_bdt (off : Int) (s : State) : exec (.bdt off) s = .next (s.branchIf s.flags.dbz off) := rfl
theorem exec_bdf (off : Int) (s : State) : exec (.bdf off) s = .next (s.branchIf (!s.flags.dbz) off) := rfl
theorem exec_setie (s : State) : exec .setie s = .next (s.setIe (!s.flags.ie)) := rfl
theorem exec_reti (s : State) : exec .reti s = .next s.interruptReturn := rfl
theorem exec_brk (s : State) : exec .brk s = .next (s.endRun .brk) := rfl

/-! ### Every instruction has one of the forms -/

/-- JALR is a link and a jump, the jump to `pc` itself unless `JALR_JUMPS` (R134). -/
theorem exec_jalr_eq_link (rs : RegNum) (s : State) : exec (.jalr rs) s =
    .next ((s.setReg raReg s.pc).setPc (if s.variant.jalrJumps then s.reg rs else s.pc)) := by
  show Host.Outcome.next _ = _
  cases s.variant.jalrJumps <;> rfl

/-- MULT in the form `hiLo`, without draws (R119). -/
theorem exec_mult_eq_hiLo (rs rt : RegNum) (s : State) : exec (.mult rs rt) s =
    .next (((s.setHiLo ((product (s.reg rs) (s.reg rt)).extractLsb' 32 32)
      ((product (s.reg rs) (s.reg rt)).extractLsb' 0 32)).drew 0).setStatus
        (flMult (product (s.reg rs) (s.reg rt)))) := rfl

/-- MUL8 in the form `vHiLo`, without draws (R229). -/
theorem exec_mul8_eq_vHiLo (rs rt : RegNum) (s : State) : exec (.mul8 rs rt) s =
    .next ((s.setVHiLo (mulLane8 (s.reg rs) (s.reg rt) 3 ++ mulLane8 (s.reg rs) (s.reg rt) 2)
      (mulLane8 (s.reg rs) (s.reg rt) 1 ++ mulLane8 (s.reg rs) (s.reg rt) 0)).drew 0) := rfl

/-- MUL16 in the form `vHiLo`, without draws (R230). -/
theorem exec_mul16_eq_vHiLo (rs rt : RegNum) (s : State) : exec (.mul16 rs rt) s =
    .next ((s.setVHiLo (mulLane16 (s.reg rs) (s.reg rt) 1) (mulLane16 (s.reg rs) (s.reg rt) 0)).drew 0) := rfl

/-- One of DIV's two results: `y`, or the free value of draw `k` where the division has none (R115). -/
def divResult (a b : Word) (k : Nat) (y : Word) : Word :=
  if b = 0 ∨ divOverflows a b then Config.unspecWord k else y

/-- The flags that DIV writes (R37, R115). -/
def divStatus (a b : Word) : StatusOut :=
  if b = 0 then flDivByZero
  else if divOverflows a b then flDivOverflow
  else flDiv (quotient a b) (remainder a b)

/-- DIV in the form `hiLo`: only where a result is free are draws taken (R115). -/
theorem exec_div_eq_hiLo (rs rt : RegNum) (s : State) : exec (.div rs rt) s =
    .next (((s.setHiLo
        (divResult (s.reg rs) (s.reg rt) (s.draws + 1) (remainder (s.reg rs) (s.reg rt)))
        (divResult (s.reg rs) (s.reg rt) s.draws (quotient (s.reg rs) (s.reg rt)))).drew
      (if s.reg rt = 0 ∨ divOverflows (s.reg rs) (s.reg rt) then 2 else 0)).setStatus
        (divStatus (s.reg rs) (s.reg rt))) := by
  simp only [exec, execDiv, divResult, divStatus]
  by_cases hz : s.reg rt = 0
  · simp only [hz, if_true, true_or]
  · cases ho : divOverflows (s.reg rs) (s.reg rt)
    · simp only [hz, Bool.false_eq_true, or_self, if_false]; rfl
    · simp only [hz, or_true, if_true, if_false]

/-- Every instruction has one of the forms: the one place where the arms of `exec` are gone through. -/
theorem execForm (i : Instr) : ExecForm i := by
  cases i with
  | rr | rb | rbo | mfhi | mflo | bsi | bci | add8 | add16 | sub8 | sub16 | and8 | and16 | or8 | or16 | not8 | not16
  | xor8 | xor16 | vmfhi8 | vmfhi16 | vmflo8 | vmflo16 =>
    exact .move _ _ (fun _ => rfl) (fun _ _ => rfl) rfl rfl
  | sll | srl | sra | add | addu | sub | subu | and | or | xor | nor | slt | sltu | addi | slti | sltiu | andi | ori
  | xori | lui =>
    exact .alu _ _ _ (fun _ => rfl) ⟨fun _ _ => rfl, fun _ _ => rfl⟩ rfl ⟨rfl, nofun, nofun⟩
  | lw | input =>
    exact .load _ _ _ (fun _ => rfl) ⟨fun _ _ => rfl, fun _ _ => rfl⟩ rfl ⟨rfl, nofun, nofun⟩
  | bgez | beq | bne | blez | bgtz | bltz =>
    exact .branch _ _ _ (fun _ => rfl) ⟨fun _ _ => rfl, fun _ _ => rfl⟩ rfl ⟨rfl, nofun, nofun⟩
  | jr | j => exact .jump _ (fun _ => rfl) (fun _ _ => rfl) rfl rfl nofun
  | jal => exact .link _ (fun _ => rfl) (fun _ _ => rfl) rfl rfl
  | jalr rs => exact .link _ (exec_jalr_eq_link rs) (fun _ _ => rfl) rfl rfl
  | mult rs rt =>
    exact .hiLo _ _ _ _ (exec_mult_eq_hiLo rs rt)
      ⟨fun _ _ => rfl, fun _ _ => rfl, fun _ _ => rfl, fun _ _ => rfl⟩ rfl ⟨rfl, nofun, nofun⟩
  | div rs rt =>
    exact .hiLo _ _ _ _ (exec_div_eq_hiLo rs rt)
      ⟨fun _ _ => rfl, fun _ _ => rfl, fun _ _ => rfl, fun _ _ => rfl⟩ rfl ⟨rfl, nofun, nofun⟩
  | mul8 rs rt => exact .vHiLo _ _ _ (exec_mul8_eq_vHiLo rs rt) ⟨fun _ _ => rfl, fun _ _ => rfl⟩ rfl rfl nofun
  | mul16 rs rt => exact .vHiLo _ _ _ (exec_mul16_eq_vHiLo rs rt) ⟨fun _ _ => rfl, fun _ _ => rfl⟩ rfl rfl nofun
  | div8 | div16 =>
    exact .vHiLo _ _ _ (fun _ => rfl) ⟨fun _ _ => rfl, fun _ _ => rfl⟩ rfl rfl nofun
  | sw rt rs imm => exact .sw rt rs imm
  | output rt rs imm => exact .output rt rs imm
  | bdt off => exact .bdt off
  | bdf off => exact .bdf off
  | setie => exact .setie
  | reti => exact .reti
  | brk => exact .brk

end Sys2Proof.Machine
end

section
/-! SUPPORT. What every instruction does whatever its form: it completes, keeps the control state and the invariant,
and does not read the flags (60 R269, 10 R39). -/

namespace Sys2Proof.Machine

/-! ### Completion and the control state -/

/-- The end of run after an instruction: BREAK's own, else the one before (R135). -/
def endedAfter (i : Instr) (s : State) : Option RunEnd := if i = .brk then some .brk else s.ended

theorem endedAfter_of_ne_brk {i : Instr} (s : State) (h : i ≠ .brk) : endedAfter i s = s.ended := if_neg h

/-- An instruction with a destination register is not BREAK. -/
theorem ne_brk_of_dest {i : Instr} {d : RegNum} (h : destReg? i = some d) : i ≠ .brk := by
  rintro rfl
  exact nomatch h

/-- Every instruction answers a next state; it ends the run only as BREAK, and leaves the rest of the control state
alone. -/
theorem exec_completes (i : Instr) (s : State) : ∃ t, exec i s = .next t ∧ t.ended = endedAfter i s ∧
    t.ir = s.ir ∧ t.intAck = s.intAck ∧ t.intr = s.intr ∧ t.hostMoves = s.hostMoves ∧ t.variant = s.variant := by
  cases execForm i with
  | move d y h _ dest => exact ⟨_, h s, by simp [endedAfter_of_ne_brk s (ne_brk_of_dest dest)]⟩
  | alu d o y h _ dest => exact ⟨_, h s, by simp [endedAfter_of_ne_brk s (ne_brk_of_dest dest)]⟩
  | load d o y h _ dest => exact ⟨_, h s, by simp [endedAfter_of_ne_brk s (ne_brk_of_dest dest)]⟩
  | branch o b off h _ _ writes => exact ⟨_, h s, by simp [endedAfter_of_ne_brk s writes.ne_brk]⟩
  | jump a h _ _ _ runs => exact ⟨_, h s, by simp [endedAfter_of_ne_brk s runs]⟩
  | link a h _ dest => exact ⟨_, h s, by simp [endedAfter_of_ne_brk s (ne_brk_of_dest dest)]⟩
  | hiLo hi lo n o eq _ _ writes => exact ⟨_, eq s, by simp [endedAfter_of_ne_brk s writes.ne_brk]⟩
  | vHiLo hi lo n eq _ _ _ runs => exact ⟨_, eq s, by simp [endedAfter_of_ne_brk s runs]⟩
  | sw rt rs imm => exact ⟨_, exec_sw rt rs imm s, rfl, rfl, rfl, rfl, rfl, rfl⟩
  | output rt rs imm => exact ⟨_, exec_output rt rs imm s, rfl, rfl, rfl, rfl, rfl, rfl⟩
  | bdt off => exact ⟨_, exec_bdt off s, by simp [endedAfter_of_ne_brk s]⟩
  | bdf off => exact ⟨_, exec_bdf off s, by simp [endedAfter_of_ne_brk s]⟩
  | setie => exact ⟨_, exec_setie s, rfl, rfl, rfl, rfl, rfl, rfl⟩
  | reti => exact ⟨_, exec_reti s, by simp [endedAfter_of_ne_brk s]⟩
  | brk => exact ⟨_, exec_brk s, rfl, rfl, rfl, rfl, rfl, rfl⟩

/-- `exec_completes` for a next state that is at hand. -/
theorem exec_control {i : Instr} {s t : State} (h : exec i s = .next t) : t.ended = endedAfter i s ∧
    t.ir = s.ir ∧ t.intAck = s.intAck ∧ t.intr = s.intr ∧ t.hostMoves = s.hostMoves ∧ t.variant = s.variant := by
  obtain ⟨t', ht', hc⟩ := exec_completes i s
  cases h.symm.trans ht'
  exact hc

/-- Settles O20, from `exec_completes`. -/
theorem everyInstructionCompletes : Obligations.EveryInstructionCompletes := by
  intro i s
  obtain ⟨t, ht, hended, -⟩ := exec_completes i s
  exact ⟨t, ht, hended⟩

/-! ### The invariant (R21, R51, R60) -/

section Invariant

variable {s t : State}

/-- The invariant looks at register 0 and the three memories alone. -/
theorem State.Inv.congr (h : s.Inv) (h0 : t.regs[0] = s.regs[0]) (hi : t.imem = s.imem) (hd : t.dmem = s.dmem)
    (hio : t.iomem = s.iomem) : t.Inv := by
  unfold State.Inv
  rw [h0, hi, hd, hio]
  exact h

theorem State.Inv.setReg (h : s.Inv) (d : RegNum) (v : Word) : (s.setReg d v).Inv :=
  h.congr (State.setReg_regs_zero s d v) (by simp) (by simp) (by simp)

theorem State.Inv.branchIf (h : s.Inv) (b : Bool) (off : Int) : (s.branchIf b off).Inv :=
  h.congr (by simp) (by simp) (by simp) (by simp)

theorem State.Inv.setDmemWord (h : s.Inv) (a v : Word) : (s.setDmemWord a v).Inv := by
  obtain ⟨h0, hi, hd, hio⟩ := h
  exact ⟨h0, hi, Memory.setWord_wf v hd (idx_lt a), hio⟩

theorem State.Inv.setIomemWord (h : s.Inv) (a v : Word) : (s.setIomemWord a v).Inv := by
  obtain ⟨h0, hi, hd, hio⟩ := h
  exact ⟨h0, hi, hd, Memory.setWord_wf v hio (idx_lt a)⟩

theorem State.Inv.interruptReturn (h : s.Inv) : s.interruptReturn.Inv :=
  h.congr s.interruptReturn_regs_zero (by simp) (by simp) (by simp)

/-- Entry writes register 29 and pushes two words (R265). -/
theorem State.Inv.interruptEntry (h : s.Inv) : s.interruptEntry.Inv :=
  ((h.setDmemWord (s.reg spReg - 4) s.pc).setDmemWord (s.reg spReg - 8) (flagsWord s.flags)).congr
    s.interruptEntry_regs_zero (by simp) (by simp) (by simp)

theorem State.Inv.resetPulse (h : s.Inv) : s.resetPulse.Inv := by
  obtain ⟨-, hi, hd, hio⟩ := h
  exact ⟨s.resetPulse_regs_zero, hi, hd, hio⟩

/-- The host's writes keep I/O memory in canonical form (D16). -/
theorem State.Inv.atBoundary (h : s.Inv) : s.atBoundary.Inv := by
  obtain ⟨h0, hi, hd, hio⟩ := h
  exact ⟨h0, hi, hd, hostWrites_wf _ hio⟩

/-- The state in which the fetched instruction runs. -/
theorem State.Inv.fetched (h : s.Inv) : s.atBoundary.settleAck.fetch.Inv :=
  h.atBoundary.congr (by simp) (by simp) (by simp) (by simp)

/-- Every instruction keeps the invariant. -/
theorem State.Inv.exec {i : Instr} (hs : s.Inv) (ht : exec i s = .next t) : t.Inv := by
  have next {u : State} (h : Machine.exec i s = .next u) (hu : u.Inv) : t.Inv := by
    cases ht.symm.trans h
    exact hu
  cases execForm i with
  | move d y h => exact next (h s) (hs.setReg d _)
  | alu d o y h => exact next (h s) (State.Inv.setReg (s := s.setStatus _) hs d _)
  | load d o y h => exact next (h s) (State.Inv.setReg (s := (s.setStatus _).drew _) hs d _)
  | branch o b off h => exact next (h s) (State.Inv.branchIf (s := s.setStatus _) hs _ off)
  | jump a h => exact next (h s) hs
  | link a h => exact next (h s) (hs.setReg raReg _)
  | hiLo hi lo n o eq => exact next (eq s) hs
  | vHiLo hi lo n eq => exact next (eq s) hs
  | sw rt rs imm => exact next (exec_sw rt rs imm s) (State.Inv.setDmemWord (s := s.setStatus _) hs _ _)
  | output rt rs imm => exact next (exec_output rt rs imm s) (State.Inv.setIomemWord (s := s.setStatus _) hs _ _)
  | bdt off => exact next (exec_bdt off s) (hs.branchIf _ off)
  | bdf off => exact next (exec_bdf off s) (hs.branchIf _ off)
  | setie => exact next (exec_setie s) hs
  | reti => exact next (exec_reti s) hs.interruptReturn
  | brk => exact next (exec_brk s) hs

/-- Every way through a step keeps the invariant. -/
theorem State.Inv.step (hs : s.Inv) (h : step s = .next t) : t.Inv := by
  rcases step_cases h with ⟨-, rfl⟩ | ⟨-, -, -, -, rfl⟩ | ⟨-, -, -, -, rfl⟩ | ⟨-, -, i, -, hx⟩ | ⟨-, -, e, -, rfl⟩
  · exact hs.atBoundary.resetPulse
  · exact hs.atBoundary.interruptEntry
  · exact hs.atBoundary
  · exact hs.fetched.exec hx
  · exact hs.fetched

/-- No step changes the parameters of the machine (R6). -/
theorem step_variant (h : Machine.step s = .next t) : t.variant = s.variant := by
  rcases step_cases h with ⟨-, rfl⟩ | ⟨-, -, -, -, rfl⟩ | ⟨-, -, -, -, rfl⟩ | ⟨-, -, i, -, hx⟩ | ⟨-, -, e, -, rfl⟩
  · simp
  · simp
  · simp
  · obtain ⟨-, -, -, -, -, hv⟩ := exec_control hx
    simpa using hv
  · simp

end Invariant

/-- Settles O9, by the cases of a step and, for an instruction, by the forms of its meaning. -/
theorem stepKeepsTheInvariant : Obligations.StepKeepsTheInvariant :=
  fun _ _ hs h => ⟨hs.step h, step_variant h⟩

/-! ### Flags before and flags after (R39) -/

/-- The flags after an instruction that started with the flags `f`, where `t` is its next state from a state that
differs in the flags alone: kept (R38), popped (R212), IE inverted (R136), or the ALU's outputs with IE kept (R28). -/
def flagsAfter (i : Instr) (t : State) (f : Flags) : Flags :=
  if leavesFlags i then f
  else if i = .reti then t.flags
  else if i = .setie then { f with ie := !f.ie }
  else { t.flags with ie := f.ie }

theorem flagsAfter_of_leaves {i : Instr} (t : State) (f : Flags) (h : leavesFlags i = true) :
    flagsAfter i t f = f := by
  rw [flagsAfter, if_pos h]

theorem flagsAfter_of_writesStatus {i : Instr} (t : State) (f : Flags) (h : WritesStatus i) :
    flagsAfter i t f = { t.flags with ie := f.ie } := by
  obtain ⟨hl, hs, hr⟩ := h
  rw [flagsAfter, if_neg (by simp [hl]), if_neg hr, if_neg hs]

section SetFlags

variable (s : State) (f : Flags)

theorem State.setFlags_setReg (d : RegNum) (y : Word) : (s.setFlags f).setReg d y = (s.setReg d y).setFlags f := by
  unfold State.setReg
  split <;> rfl

theorem State.setFlags_branchIf (b : Bool) (off : Int) :
    (s.setFlags f).branchIf b off = (s.branchIf b off).setFlags f := by
  cases b <;> rfl

theorem State.setFlags_setPc (a : Word) : (s.setFlags f).setPc a = (s.setPc a).setFlags f := rfl
theorem State.setFlags_drew (n : Nat) : (s.setFlags f).drew n = (s.drew n).setFlags f := rfl
theorem State.setFlags_setHiLo (h l : Word) : (s.setFlags f).setHiLo h l = (s.setHiLo h l).setFlags f := rfl
theorem State.setFlags_setVHiLo (h l : Word) : (s.setFlags f).setVHiLo h l = (s.setVHiLo h l).setFlags f := rfl

/-- A write of the status flags takes IE alone from the flags before (R28). -/
theorem State.setFlags_setStatus (o : StatusOut) :
    (s.setFlags f).setStatus o = (s.setStatus o).setFlags { (s.setStatus o).flags with ie := f.ie } := rfl

end SetFlags

/-- Where a state's flags are replaced by `f`: DBZ and IE are as before, or the instruction reads no flag. -/
def FlagsReadAgree (i : Instr) (s : State) (f : Flags) : Prop :=
  (f.dbz = s.flags.dbz ∧ f.ie = s.flags.ie) ∨ ((∀ off, i ≠ .bdt off ∧ i ≠ .bdf off) ∧ i ≠ .setie)

theorem FlagsReadAgree.dbz_of_bdt {off : Int} {s : State} {f : Flags} (h : FlagsReadAgree (.bdt off) s f) :
    f.dbz = s.flags.dbz := by
  obtain ⟨hdbz, -⟩ | ⟨hno, -⟩ := h
  · exact hdbz
  · exact absurd rfl (hno off).1

theorem FlagsReadAgree.dbz_of_bdf {off : Int} {s : State} {f : Flags} (h : FlagsReadAgree (.bdf off) s f) :
    f.dbz = s.flags.dbz := by
  obtain ⟨hdbz, -⟩ | ⟨hno, -⟩ := h
  · exact hdbz
  · exact absurd rfl (hno off).2

/-- With other flags before, an instruction does the same but for the flags after. -/
theorem exec_setFlags {i : Instr} {s t : State} {f : Flags} (ht : exec i s = .next t) (hf : FlagsReadAgree i s f) :
    exec i (s.setFlags f) = .next (t.setFlags (flagsAfter i t f)) := by
  cases execForm i with
  | move d y h blind _ leaves =>
    cases ht.symm.trans (h s)
    rw [h, blind, State.setFlags_setReg, flagsAfter_of_leaves _ _ leaves]
  | alu d o y h blind _ writes =>
    cases ht.symm.trans (h s)
    rw [h, blind.1, blind.2, State.setFlags_setStatus, State.setFlags_setReg, flagsAfter_of_writesStatus _ _ writes,
      State.setReg_flags]
  | load d o y h blind _ writes =>
    cases ht.symm.trans (h s)
    rw [h, blind.1, blind.2, State.setFlags_setStatus, State.setFlags_drew, State.setFlags_setReg,
      flagsAfter_of_writesStatus _ _ writes, State.setReg_flags, State.drew_flags]
  | branch o taken off h blind _ writes =>
    cases ht.symm.trans (h s)
    rw [h, blind.1, blind.2, State.setFlags_setStatus, State.setFlags_branchIf,
      flagsAfter_of_writesStatus _ _ writes, State.branchIf_flags]
  | jump a h blind _ leaves =>
    cases ht.symm.trans (h s)
    rw [h, blind, State.setFlags_setPc, flagsAfter_of_leaves _ _ leaves]
  | link a h blind _ leaves =>
    cases ht.symm.trans (h s)
    rw [h, blind, State.setFlags_setReg, State.setFlags_setPc, State.setFlags_pc, flagsAfter_of_leaves _ _ leaves]
  | hiLo hi lo n o eq blind _ writes =>
    obtain ⟨bhi, blo, bn, bo⟩ := blind
    cases ht.symm.trans (eq s)
    rw [eq, bhi, blo, bn, bo, flagsAfter_of_writesStatus _ _ writes, State.setFlags_setHiLo, State.setFlags_drew,
      State.setFlags_setStatus]
  | vHiLo hi lo n eq blind _ leaves =>
    cases ht.symm.trans (eq s)
    rw [eq, blind.1, blind.2, flagsAfter_of_leaves _ _ leaves, State.setFlags_setVHiLo, State.setFlags_drew]
  | sw rt rs imm =>
    cases ht
    rfl
  | output rt rs imm =>
    cases ht
    rfl
  | bdt off =>
    cases ht
    rw [exec_bdt, State.setFlags_flags, hf.dbz_of_bdt, State.setFlags_branchIf, flagsAfter_of_leaves _ _ rfl]
  | bdf off =>
    cases ht
    rw [exec_bdf, State.setFlags_flags, hf.dbz_of_bdf, State.setFlags_branchIf, flagsAfter_of_leaves _ _ rfl]
  | setie =>
    cases ht
    rfl
  | reti =>
    cases ht
    rfl
  | brk =>
    cases ht
    rfl

/-- Settles O26, by the forms of an instruction's meaning: what a form leaves open does not depend on the flags. -/
theorem carryAndOverflowAreNotRead : Obligations.CarryAndOverflowAreNotRead :=
  fun _ _ _ _ ht hf => exec_setFlags ht hf

end Sys2Proof.Machine
end

section
/-! SUPPORT. The words that decode to nothing (30 R86 to R89): one lemma for each table. -/

namespace Sys2Proof

variable {w : Word}

theorem decodeWord_of_rType (h : opField w = 0x00) : decodeWord w = decodeRType w := by
  simp [decodeWord, h]

theorem decodeWord_of_vType (h : opField w = 0x1F) : decodeWord w = decodeVType w := by
  simp [decodeWord, h]

theorem decodeVType_of_quad8 (h : mselField w = 0b01) : decodeVType w = decodeQuad8 w := by
  simp [decodeVType, h]

theorem decodeVType_of_dual16 (h : mselField w = 0b10) : decodeVType w = decodeDual16 w := by
  simp [decodeVType, h]

/-- The mode values 00 and 11 are no mode, whatever the function select is (R222). -/
theorem decodeVType_of_noMode (h : mselField w = 0b00 ∨ mselField w = 0b11) :
    decodeVType w = .error .vtypeMode := by
  rcases h with h | h
  · simp [decodeVType, h]
  · simp [decodeVType, h]

/-- A function code that R88 does not list: every arm of the table but the last has a listed code. -/
theorem decodeRType_of_unlisted (h : functField w ∉ Machine.rTypeFuncts) : decodeRType w = .error .illegalOp := by
  unfold decodeRType
  split
  case h_25 => rfl
  all_goals next hw => rw [hw] at h; exact absurd (by decide) h

/-- A function select that R89 does not list, in each mode. -/
theorem decodeQuad8_of_unlisted (h : vfsField w ∉ Machine.vTypeFuncts) : decodeQuad8 w = .error .illegalOp := by
  unfold decodeQuad8
  split
  case h_11 => rfl
  all_goals next hw => rw [hw] at h; exact absurd (by decide) h

theorem decodeDual16_of_unlisted (h : vfsField w ∉ Machine.vTypeFuncts) : decodeDual16 w = .error .illegalOp := by
  unfold decodeDual16
  split
  case h_11 => rfl
  all_goals next hw => rw [hw] at h; exact absurd (by decide) h

/-- A major opcode that R87 does not list. -/
theorem decodeWord_of_unlisted (h0 : opField w ≠ 0x00) (hv : opField w ≠ 0x1F)
    (h : opField w ∉ Machine.majorOpcodes) : decodeWord w = .error .illegalOp := by
  unfold decodeWord
  split
  case h_1 hw => exact absurd hw h0
  case h_22 hw => exact absurd hw hv
  case h_27 => rfl
  all_goals next hw => rw [hw] at h; exact absurd (by decide) h

/-- The three causes of an illegal opcode (R260). -/
theorem decodeWord_illegalOp
    (h : (opField w = 0x00 ∧ functField w ∉ Machine.rTypeFuncts) ∨
      (opField w = 0x1F ∧ (mselField w = 0b01 ∨ mselField w = 0b10) ∧ vfsField w ∉ Machine.vTypeFuncts) ∨
      (opField w ≠ 0x00 ∧ opField w ≠ 0x1F ∧ opField w ∉ Machine.majorOpcodes)) :
    decodeWord w = .error .illegalOp := by
  rcases h with ⟨hop, hf⟩ | ⟨hop, hm | hm, hf⟩ | ⟨h0, hv, hop⟩
  · rw [decodeWord_of_rType hop, decodeRType_of_unlisted hf]
  · rw [decodeWord_of_vType hop, decodeVType_of_quad8 hm, decodeQuad8_of_unlisted hf]
  · rw [decodeWord_of_vType hop, decodeVType_of_dual16 hm, decodeDual16_of_unlisted hf]
  · exact decodeWord_of_unlisted h0 hv hop

/-- The one cause of a hang (R222). -/
theorem decodeWord_vtypeMode (hop : opField w = 0x1F) (hm : mselField w = 0b00 ∨ mselField w = 0b11) :
    decodeWord w = .error .vtypeMode := by
  rw [decodeWord_of_vType hop, decodeVType_of_noMode hm]

end Sys2Proof
end

section
/-! SUPPORT. The fetch and what follows it: an instruction, or one of the ends of a run (60 R260 to R264). -/

namespace Sys2Proof.Machine

variable {s t : State}

/-! ### What the fetch of a step changes -/

/-- `u` is `s` but for the host's move, the latch, the instruction register, the advanced `pc` and the end of run. -/
structure Fetched (s u : State) : Prop where
  pc : u.pc = s.pc + 4
  intAck : u.intAck = (s.intAck && s.hostMove.intr)
  regs : SameRegs s u
  flags : u.flags = s.flags
  hiLo : SameHiLo s u
  vHiLo : SameVHiLo s u
  memories : SameMemories s.atBoundary u
  intr : u.intr = s.hostMove.intr
  hostMoves : u.hostMoves = s.hostMoves.tail
  variant : u.variant = s.variant

/-- The state in which a fetched instruction runs. -/
theorem fetched_fetch (s : State) : Fetched s s.atBoundary.settleAck.fetch where
  pc := by simp
  intAck := by simp
  regs _ := by simp
  flags := by simp
  hiLo := by simp [SameHiLo]
  vHiLo := by simp [SameVHiLo]
  memories := by simp [SameMemories, SameImem, SameDmem, SameIomem]
  intr := by simp
  hostMoves := by simp
  variant := by simp

/-- The end of a run changes nothing of this. -/
theorem Fetched.endRun {u : State} (h : Fetched s u) (e : RunEnd) : Fetched s (u.endRun e) :=
  { h with }

/-- The fetched machine runs on if it did. -/
theorem fetch_ended (hs : s.Runs) : s.atBoundary.settleAck.fetch.ended = none := by
  simpa using hs.1

/-- Settles O12: the fetched state is the one that the instruction runs in. -/
theorem stepRunsTheDecodedInstruction : Obligations.StepRunsTheDecodedInstruction := by
  intro s w i hs hf hw hd
  have hir : s.atBoundary.settleAck.fetch.ir = w := fetch_ir_of_holdsWord hw
  have hu := fetched_fetch s
  obtain ⟨himem, hdmem, hiomem⟩ := hu.memories
  refine ⟨s.atBoundary.settleAck.fetch, ?_, hir, hu.pc, hu.intAck, hu.regs, hu.flags, hu.hiLo, hu.vHiLo, himem, hdmem,
    hiomem, fetch_ended hs, hu.intr, hu.hostMoves, hu.variant⟩
  rw [step_of_fetch hs hf, fetchExecute_of_ok (hir ▸ hd)]

/-! ### Words without an instruction (R260, R222) -/

/-- A machine that has ended faults at the next boundary unless the host pulses reset (R8). -/
theorem step_endRun (u : State) (e : RunEnd) (h : (u.endRun e).hostMove.reset = false) :
    step (u.endRun e) = .fault (u.endFault e) := by
  rw [step_of_ended h rfl]
  cases e <;> rfl

/-- The step that fetches a word without an instruction ends the run after the fetch. -/
theorem step_of_decode_error {w : Word} {e : DecodeError} (hs : s.Runs) (hf : s.FetchAllowed)
    (hw : HoldsWord s.imem (idx s.pc) w) (hd : decodeWord w = .error e) :
    step s = .next (s.atBoundary.settleAck.fetch.endRun (runEndOf e)) := by
  rw [step_of_fetch hs hf, fetchExecute_of_error (fetch_ir_of_holdsWord hw ▸ hd)]

/-- Settles O13: the step ends the run after the fetch, and an ended machine faults. -/
theorem illegalWordEndsTheRun : Obligations.IllegalWordEndsTheRun := by
  intro s w hs hf hw hcause
  have hir : s.atBoundary.settleAck.fetch.ir = w := fetch_ir_of_holdsWord hw
  have hu := (fetched_fetch s).endRun .illegalOp
  refine ⟨_, step_of_decode_error hs hf hw (decodeWord_illegalOp hcause), rfl, hu.pc, hir, hu.regs, hu.flags, hu.hiLo,
    hu.vHiLo, hu.memories, hu.intAck, fun hr => ?_⟩
  rw [step_endRun _ _ hr, ← hir, ← (fetched_fetch s).pc]
  rfl

/-- Settles O14: as for an illegal word, and a reset pulse leaves every end of run. -/
theorem vtypeModeHangsTheMachine : Obligations.VtypeModeHangsTheMachine := by
  intro s w hs hf hw hop hm
  have hu := (fetched_fetch s).endRun .stuckVtypeMode
  refine ⟨_, step_of_decode_error hs hf hw (decodeWord_vtypeMode hop hm), rfl, hu.pc, fetch_ir_of_holdsWord hw, hu.regs,
    hu.flags, hu.hiLo, hu.vHiLo, hu.memories, hu.intAck, fun hr => ?_, fun hr => ?_⟩
  · rw [step_endRun _ _ hr, ← (fetched_fetch s).pc]
    rfl
  · exact ⟨_, step_of_reset hr, State.resetPulse_ended _⟩

/-! ### BREAK (R135, R261) -/

theorem decodesRType_brk : DecodesRType 0x0D (fun _ => .brk) := by
  intro w hop hf
  rw [decodeWord_of_rType hop]
  simp [decodeRType, hf]

/-- Settles O44, from BREAK's row of R88 and its equation. -/
theorem breakEndsTheRun : Obligations.BreakEndsTheRun := by
  refine ⟨decodesRType_brk, fun s => ⟨s.endRun .brk, exec_brk s, ?_⟩⟩
  simp only [State.endRun_ended, State.endRun_pc, State.endRun_flags, State.endRun_ir, State.endRun_intAck,
    State.endRun_intr, State.endRun_hostMoves, State.endRun_variant, true_and]
  exact ⟨fun _ => rfl, ⟨rfl, rfl⟩, ⟨rfl, rfl⟩, ⟨fun _ => rfl, fun _ => rfl, fun _ => rfl⟩, step_endRun s .brk⟩

/-! ### The ends of a run, and no others (R8) -/

/-- The fetched word ends the run: it is BREAK or decodes to nothing. -/
def EndsTheRun (w : Word) : Prop := decodeWord w = .ok .brk ∨ ∃ e, decodeWord w = .error e

/-- The run ends in `t` exactly if the step fetched a word that ends it; then nothing but the fetch has happened. -/
def EndsAsFetched (s t : State) : Prop :=
  (t.ended ≠ none ↔ s.FetchAllowed ∧ EndsTheRun t.ir) ∧ (t.ended ≠ none → Fetched s t)

/-- A step that fetches. -/
theorem step_fetch_endsAsFetched (hs : s.Runs) (hf : s.FetchAllowed) : ∃ t, step s = .next t ∧ EndsAsFetched s t := by
  have hu := fetched_fetch s
  cases hd : decodeWord s.atBoundary.settleAck.fetch.ir with
  | error e =>
    refine ⟨_, (step_of_fetch hs hf).trans (fetchExecute_of_error hd), ?_, fun _ => hu.endRun _⟩
    exact ⟨fun _ => ⟨hf, .inr ⟨e, hd⟩⟩, fun _ => nofun⟩
  | ok i =>
    obtain ⟨t, ht, hended, hir, -⟩ := exec_completes i s.atBoundary.settleAck.fetch
    refine ⟨t, (step_of_fetch hs hf).trans ((fetchExecute_of_ok hd).trans ht), ?_⟩
    have hends : EndsTheRun t.ir ↔ i = .brk := by
      rw [hir, EndsTheRun, hd]
      simp
    by_cases hb : i = .brk
    · subst hb
      cases ht
      exact ⟨⟨fun _ => ⟨hf, hends.2 rfl⟩, fun _ => nofun⟩, fun _ => hu.endRun .brk⟩
    · rw [endedAfter_of_ne_brk _ hb, fetch_ended hs] at hended
      exact ⟨⟨fun h => absurd hended h, fun h => absurd (hends.1 h.2) hb⟩, fun h => absurd hended h⟩

/-- A step that does not fetch, entering the interrupt or blocked: the run goes on, and blocked, `pc` stays. -/
theorem step_noFetch_runs (hs : s.Runs) (hf : ¬ s.FetchAllowed) :
    ∃ t, step s = .next t ∧ t.ended = none ∧ (s.flags.ie = false → t.pc = s.pc) := by
  have hi : s.hostMove.intr = true := Bool.eq_true_of_not_eq_false fun h => hf (.inl h)
  have ha : s.intAck = false := Bool.eq_false_of_not_eq_true fun h => hf (.inr h)
  cases hie : s.flags.ie with
  | true => exact ⟨_, step_of_enter hs ha hi hie, by simpa using hs.1, nofun⟩
  | false => exact ⟨_, step_of_blocked hs ha hi hie, hs.1, fun _ => rfl⟩

/-- Settles O15, by whether the step fetches. -/
theorem runEndsInExactlyTheThreeCases : Obligations.RunEndsInExactlyTheThreeCases := by
  intro s hr
  refine ⟨fun he => ?_, fun he => ?_⟩
  · obtain ⟨e, he⟩ := Option.ne_none_iff_exists'.1 he
    exact ⟨_, step_of_ended hr he⟩
  · have hs : s.Runs := ⟨he, hr⟩
    by_cases hf : s.FetchAllowed
    · obtain ⟨t, ht, hiff, hfetched⟩ := step_fetch_endsAsFetched hs hf
      refine ⟨t, ht, hiff, fun h => ?_, fun hn => absurd hf hn⟩
      have hu := hfetched h
      exact ⟨hu.pc, hu.regs, hu.flags, hu.hiLo, hu.vHiLo, hu.memories⟩
    · obtain ⟨t, ht, hended, hpc⟩ := step_noFetch_runs hs hf
      exact ⟨t, ht, ⟨fun h => absurd hended h, fun h => absurd h.1 hf⟩, fun h => absurd hended h,
        fun _ hie => ⟨hpc hie, hended⟩⟩

/-! ### The machine with its parameters given (R6) -/

/-- Settles O59: what each loaded memory holds is `loadImage_byte?`, the other fields are those of reset. -/
theorem startHoldsItsParameters : Obligations.StartHoldsItsParameters := by
  refine ⟨rfl, fun p => ⟨fun a ha => ?_, fun a ha => ?_, rfl, rfl, fun _ => rfl, rfl, ⟨rfl, rfl⟩, ⟨rfl, rfl⟩, rfl, rfl,
    rfl, rfl, rfl⟩⟩
  · simp [loadImage_byte?, ha]
  · simp [loadImage_byte?, Nat.not_lt.2 ha]

end Sys2Proof.Machine
end

section
/-! SUPPORT. The state at reset, at the reset pulse and at a boundary (10 R45, 70 R300, R301, 10 R40, 92 D16). -/

namespace Sys2Proof.Machine

/-! ### The state after reset (R45, R301) -/

theorem State.reset_reg_sp : State.reset.reg spReg = 0x000003FC := by
  rw [State.reg_of_ne _ (by decide)]
  exact Vector.getElem_set_self _

theorem State.reset_regs_zero : State.reset.regs[0] = 0 := by
  show resetRegs[0] = 0
  rw [resetRegs, Vector.getElem_set_ne _ _ (by decide), Vector.getElem_set_self]

/-- Settles O7: the register of the stack pointer is the one that reset writes, the rest stands in the definition. -/
theorem resetStateHoldsTheResetValues : Obligations.ResetStateHoldsTheResetValues :=
  ⟨rfl, State.reg_zero _, State.reset_reg_sp, rfl, rfl, rfl, rfl, rfl, rfl, rfl, rfl, rfl, rfl, rfl, rfl,
    fun _ => ⟨rfl, rfl, rfl⟩⟩

/-- Settles O8: register 0 is the one of reset, and a loaded image gives a canonical memory. -/
theorem resetMeetsTheInvariant : Obligations.ResetMeetsTheInvariant :=
  ⟨⟨State.reset_regs_zero, State.reset_memories_wf⟩,
    fun p => ⟨State.reset_regs_zero, loadImage_wf p.imemImage, loadImage_wf p.dmemImage, loadImage_wf p.iomemImage⟩⟩

/-! ### The reset pulse (R300) -/

/-- Settles O10: a pulse is the whole step, and of the registers it writes 0 and 29. -/
theorem resetPulseRestartsTheMachine : Obligations.ResetPulseRestartsTheMachine := by
  intro s h
  have hsp : s.atBoundary.resetPulse.reg 29 = 0x000003FC := State.resetPulse_reg _ spReg
  have hother : ∀ r, r ≠ 0 → r ≠ 29 → s.atBoundary.resetPulse.reg r = s.reg r := fun r _ hr =>
    (State.resetPulse_reg _ r).trans (if_neg hr)
  exact ⟨_, step_of_reset h, rfl, State.reg_zero _, hsp, hother, rfl, rfl, rfl, rfl, rfl, rfl, rfl, rfl, fun _ => rfl,
    fun _ => rfl, fun _ => rfl, rfl, rfl, rfl⟩

/-! ### The host's move (R40, D16) -/

/-- Every byte of I/O memory after the host's move (D16). -/
theorem State.atBoundary_iomem_byte? (s : State) (a : Nat) : s.atBoundary.iomem.byte? a =
    if a < memBytes then (lastNamed s.hostMove.ioWrites a).or (s.iomem.byte? a) else s.iomem.byte? a :=
  hostWrites_byte? _ _ a

/-- Settles O11: the move writes the line, the moves to come and I/O memory; the last three parts are
the cases of a byte of I/O memory. -/
theorem hostMoveChangesOnlyItsOwn : Obligations.HostMoveChangesOnlyItsOwn := by
  intro s
  refine ⟨fun _ => rfl, rfl, rfl, ⟨rfl, rfl⟩, ⟨rfl, rfl⟩, fun _ => rfl, fun _ => rfl, rfl, rfl, rfl, rfl, rfl, rfl,
    fun a b ha hb => ?named, fun a hn => ?unnamed, fun a ha => ?noByte⟩
  case named => rw [State.atBoundary_iomem_byte?, if_pos ha, hb, Option.some_or]
  case unnamed => rw [State.atBoundary_iomem_byte?, hn, Option.none_or, ite_self]
  case noByte => rw [State.atBoundary_iomem_byte?, if_neg (Nat.not_lt.2 ha)]

end Sys2Proof.Machine
end

section
/-! SUPPORT. The flags word (10 R27): the bits of the word that entry stores, and the bits that RETI reads. -/

namespace Sys2Proof.Machine

/-- The bits of the flags word from bit 0 on: the six flags, then zeros (R27). -/
theorem getLsbD_flagsWord (f : Flags) (k : Nat) :
    (flagsWord f).getLsbD k = [f.z, f.n, f.v, f.c, f.ie, f.dbz].getD k false := by
  show (0#26 ++ BitVec.ofBool f.dbz ++ BitVec.ofBool f.ie ++ BitVec.ofBool f.c ++ BitVec.ofBool f.v ++
    BitVec.ofBool f.n ++ BitVec.ofBool f.z : BitVec (26 + 1 + 1 + 1 + 1 + 1 + 1)).getLsbD k = _
  rw [BitVec.getLsbD_append, BitVec.getLsbD_append, BitVec.getLsbD_append, BitVec.getLsbD_append,
    BitVec.getLsbD_append, BitVec.getLsbD_append]
  match k with
  | 0 | 1 | 2 | 3 | 4 | 5 => simp
  | k + 6 => simp

/-- What RETI pops is what entry pushed (R212, R265). -/
theorem flagsOfWord_flagsWord (f : Flags) : flagsOfWord (flagsWord f) = f := by
  simp [flagsOfWord, -BitVec.getLsbD_eq_getElem, getLsbD_flagsWord]

/-- RETI reads no bit above the low six (R27, R212). -/
theorem flagsOfWord_and (w : Word) : flagsOfWord (w &&& 0x3F) = flagsOfWord w := by
  simp [flagsOfWord]

/-- Settles O28, bit by bit. -/
theorem flagsWordLayout : Obligations.FlagsWordLayout :=
  ⟨flagsOfWord_flagsWord, fun f k hk => (getLsbD_flagsWord f k).trans (List.getD_eq_default _ _ hk),
    fun f => ⟨getLsbD_flagsWord f 5, getLsbD_flagsWord f 4, getLsbD_flagsWord f 3, getLsbD_flagsWord f 2,
      getLsbD_flagsWord f 1, getLsbD_flagsWord f 0⟩,
    fun v w h => by rw [← flagsOfWord_and v, h, flagsOfWord_and]⟩

end Sys2Proof.Machine
end

section
/-! SUPPORT. What an instruction leaves unchanged, from the forms of its meaning: registers, HI/LO pairs and flags
(10 R20 to R28, R38). -/

namespace Sys2Proof.Machine

variable {i : Instr} {s t u : State}

/-- An instruction has one next state. -/
theorem exec_next_unique (ht : exec i s = .next t) (hu : exec i s = .next u) : t = u :=
  Host.Outcome.next.inj (ht.symm.trans hu)

/-! ### General registers (R20 to R23) -/

/-- Every register but the destination reads as before. -/
theorem exec_reg_of_ne_dest (ht : exec i s = .next t) {r : RegNum} (hr : destReg? i ≠ some r) : t.reg r = s.reg r := by
  have ne_dest {d : RegNum} (dest : destReg? i = some d) : r ≠ d := by
    rintro rfl
    exact hr dest
  cases execForm i with
  | move d y h _ dest => rw [exec_next_unique ht (h s), State.setReg_reg_other _ _ (ne_dest dest)]
  | alu d o y h _ dest =>
    rw [exec_next_unique ht (h s), State.setReg_reg_other _ _ (ne_dest dest), State.setStatus_reg]
  | load d o y h _ dest =>
    rw [exec_next_unique ht (h s), State.setReg_reg_other _ _ (ne_dest dest), State.drew_reg, State.setStatus_reg]
  | branch o taken off h => rw [exec_next_unique ht (h s), State.branchIf_reg, State.setStatus_reg]
  | jump a h => rw [exec_next_unique ht (h s), State.setPc_reg]
  | link a h _ dest =>
    rw [exec_next_unique ht (h s), State.setPc_reg, State.setReg_reg_other _ _ (ne_dest dest)]
  | hiLo hi lo n o eq => rw [exec_next_unique ht (eq s), State.setStatus_reg, State.drew_reg, State.setHiLo_reg]
  | vHiLo hi lo n eq => rw [exec_next_unique ht (eq s), State.drew_reg, State.setVHiLo_reg]
  | sw rt rs imm => rw [exec_next_unique ht (exec_sw rt rs imm s), State.setDmemWord_reg, State.setStatus_reg]
  | output rt rs imm => rw [exec_next_unique ht (exec_output rt rs imm s), State.setIomemWord_reg, State.setStatus_reg]
  | bdt off => rw [exec_next_unique ht (exec_bdt off s), State.branchIf_reg]
  | bdf off => rw [exec_next_unique ht (exec_bdf off s), State.branchIf_reg]
  | setie => rw [exec_next_unique ht (exec_setie s), State.setIe_reg]
  | reti => rw [exec_next_unique ht (exec_reti s), State.interruptReturn_reg, if_neg (ne_dest rfl)]
  | brk => rw [exec_next_unique ht (exec_brk s), State.endRun_reg]

/-- Settles O25, by the forms of an instruction's meaning. -/
theorem onlyTheDestinationRegisterChanges : Obligations.OnlyTheDestinationRegisterChanges :=
  fun _ _ t ht => ⟨t.reg_zero, fun _ hr => exec_reg_of_ne_dest ht hr⟩

/-! ### The HI/LO pairs (R25, R26) -/

/-- An instruction that writes a register keeps both pairs. -/
theorem exec_sameHiLos_of_dest (ht : exec i s = .next t) {d : RegNum} (dest : destReg? i = some d) :
    SameHiLo s t ∧ SameVHiLo s t := by
  have no_dest {P : Prop} (h : destReg? i = none) : P := nomatch h.symm.trans dest
  cases execForm i with
  | move d y h => simp [exec_next_unique ht (h s), SameHiLo, SameVHiLo]
  | alu d o y h => simp [exec_next_unique ht (h s), SameHiLo, SameVHiLo]
  | load d o y h => simp [exec_next_unique ht (h s), SameHiLo, SameVHiLo]
  | link a h => simp [exec_next_unique ht (h s), SameHiLo, SameVHiLo]
  | reti => simp [exec_next_unique ht (exec_reti s), SameHiLo, SameVHiLo]
  | branch _ _ _ _ _ hno => exact no_dest hno
  | jump _ _ _ hno => exact no_dest hno
  | hiLo _ _ _ _ _ _ hno => exact no_dest hno
  | vHiLo _ _ _ _ _ hno => exact no_dest hno
  | sw | output | bdt | bdf | setie | brk => exact no_dest rfl

theorem State.branchIf_sameHiLo (s : State) (b : Bool) (off : Int) : SameHiLo s (s.branchIf b off) :=
  ⟨s.branchIf_hi b off, s.branchIf_lo b off⟩

theorem State.branchIf_sameVHiLo (s : State) (b : Bool) (off : Int) : SameVHiLo s (s.branchIf b off) :=
  ⟨s.branchIf_vhi b off, s.branchIf_vlo b off⟩

/-- Settles O23: an instruction with a destination register keeps both pairs, the others are gone through. -/
theorem onlyMultiplyAndDivideWriteTheHiLoPairs : Obligations.OnlyMultiplyAndDivideWriteTheHiLoPairs := by
  intro i s t ht
  cases dest : destReg? i with
  | some d =>
    obtain ⟨hscalar, hvector⟩ := exec_sameHiLos_of_dest ht dest
    exact ⟨fun _ => hscalar, fun _ => hvector⟩
  | none =>
    cases i with
    | mult rs rt => cases ht; exact ⟨fun h => absurd (h rs rt) (by simp), fun _ => ⟨rfl, rfl⟩⟩
    | div rs rt =>
      rw [exec_next_unique ht (exec_div_eq_hiLo rs rt s)]
      exact ⟨fun h => absurd (h rs rt) (by simp), fun _ => ⟨rfl, rfl⟩⟩
    | mul8 rs rt => cases ht; exact ⟨fun _ => ⟨rfl, rfl⟩, fun h => absurd (h rs rt) (by simp)⟩
    | mul16 rs rt => cases ht; exact ⟨fun _ => ⟨rfl, rfl⟩, fun h => absurd (h rs rt) (by simp)⟩
    | div8 rs rt => cases ht; exact ⟨fun _ => ⟨rfl, rfl⟩, fun h => absurd (h rs rt) (by simp)⟩
    | div16 rs rt => cases ht; exact ⟨fun _ => ⟨rfl, rfl⟩, fun h => absurd (h rs rt) (by simp)⟩
    | jr | j | brk | setie | sw | output => cases ht; exact ⟨fun _ => ⟨rfl, rfl⟩, fun _ => ⟨rfl, rfl⟩⟩
    | bdt | bdf =>
      cases ht
      exact ⟨fun _ => State.branchIf_sameHiLo _ _ _, fun _ => State.branchIf_sameVHiLo _ _ _⟩
    | bgez | beq | bne | blez | bgtz | bltz =>
      cases ht
      exact ⟨fun _ => State.branchIf_sameHiLo (s.setStatus _) _ _,
        fun _ => State.branchIf_sameVHiLo (s.setStatus _) _ _⟩
    | _ => exact nomatch dest

/-! ### The flags (R28, R38) -/

/-- The flags after an instruction, from those before: `exec_setFlags` with the flags that are there already. -/
theorem exec_flags (ht : exec i s = .next t) : t.flags = flagsAfter i t s.flags :=
  congrArg State.flags (exec_next_unique ht (exec_setFlags ht (.inl ⟨rfl, rfl⟩)))

/-- Settles O24, from `exec_flags`. -/
theorem flagWritersAreAsListed : Obligations.FlagWritersAreAsListed := by
  intro i s t ht
  have leaves (hl : leavesFlags i = true) : t.flags = s.flags := (exec_flags ht).trans (flagsAfter_of_leaves t _ hl)
  refine ⟨leaves, fun hs hr => ?_⟩
  cases hl : leavesFlags i with
  | true => rw [leaves hl]
  | false => rw [exec_flags ht, flagsAfter_of_writesStatus t _ ⟨hl, hs, hr⟩]

end Sys2Proof.Machine
end

section
/-! SUPPORT. DIV (40 R115): its encoding, its frame, and what it writes in each of its three cases. -/

namespace Sys2Proof.Machine

theorem decodesRType_div : DecodesRType 0x1A (fun w => .div (rsField w) (rtField w)) := by
  intro w hop hf
  rw [decodeWord_of_rType hop]
  simp [decodeRType, hf]

theorem divOverflows_iff (a b : Word) : divOverflows a b = true ↔ a = 0x80000000 ∧ b = 0xFFFFFFFF := by
  simp [divOverflows]

variable {a b : Word}

theorem divStatus_of_zero (hb : b = 0) : divStatus a b = flDivByZero := if_pos hb

theorem divStatus_of_overflow (ha : a = 0x80000000) (hb : b = 0xFFFFFFFF) : divStatus a b = flDivOverflow := by
  rw [divStatus, if_neg (by rw [hb]; decide), if_pos ((divOverflows_iff a b).2 ⟨ha, hb⟩)]

/-- The division has a result. -/
theorem divStatus_of_defined (hb : b ≠ 0) (ho : ¬ (a = 0x80000000 ∧ b = 0xFFFFFFFF)) :
    divStatus a b = flDiv (quotient a b) (remainder a b) := by
  rw [divStatus, if_neg hb, if_neg (mt (divOverflows_iff a b).1 ho)]

theorem divResult_of_defined (hb : b ≠ 0) (ho : ¬ (a = 0x80000000 ∧ b = 0xFFFFFFFF)) (k : Nat) (y : Word) :
    divResult a b k y = y :=
  if_neg (not_or.2 ⟨hb, mt (divOverflows_iff a b).1 ho⟩)

/-- The flags of a division that has a result (R37). -/
theorem flDiv_flags (q r : Word) (f : Flags) (k : Nat) :
    (f.replace (flDiv q r) k).dbz = false ∧ (f.replace (flDiv q r) k).n = q.msb ∧
    ((f.replace (flDiv q r) k).z = true ↔ q = 0 ∧ r = 0) := by
  refine ⟨rfl, rfl, ?_⟩
  rw [Flags.replace_z, flDiv, drivenBit_some, Bool.and_eq_true, isZero_iff, isZero_iff]

/-- Settles O40: DIV has one equation, whose results and flags are those of each case.
`divResult` is the name of such a result. -/
theorem divResult_holds : Obligations.DivResult := by
  refine ⟨decodesRType_div, fun rs rt s => ⟨_, exec_div_eq_hiLo rs rt s, rfl, ?_, ⟨rfl, rfl⟩, fun hb => ?zero,
    fun ha hb => ?overflow, fun hb ho => ?defined⟩⟩
  · exact ⟨fun _ => rfl, rfl, ⟨fun _ => rfl, fun _ => rfl, fun _ => rfl⟩, rfl, rfl, rfl, rfl, rfl, rfl⟩
  case zero => rw [divStatus_of_zero hb]; rfl
  case overflow => rw [divStatus_of_overflow ha hb]; rfl
  case defined =>
    rw [divResult_of_defined hb ho, divResult_of_defined hb ho, divStatus_of_defined hb ho]
    exact ⟨quotient_toInt (not_and_or.1 ho), remainder_toInt _ _, flDiv_flags _ _ _ _⟩

end Sys2Proof.Machine
end

section
/-! SUPPORT. The memories under the instructions and the steps: which of them writes which memory (20 R50, R57, R59,
R67), and what a load reads after a store (20 R56, R64). -/

namespace Sys2Proof.Machine

variable {i : Instr} {s t : State}

/-! ### Which memories an instruction writes (R50) -/

theorem SameMemories.of_eq (himem : t.imem = s.imem) (hdmem : t.dmem = s.dmem) (hiomem : t.iomem = s.iomem) :
    SameMemories s t :=
  ⟨fun a => congrArg (·.byte? a) himem, fun a => congrArg (·.byte? a) hdmem, fun a => congrArg (·.byte? a) hiomem⟩

/-- An instruction keeps the three memories unless it is SW or OUTPUT: of the forms, those two alone write one. -/
theorem exec_memories_cases (ht : exec i s = .next t) :
    SameMemories s t ∨ (∃ rt rs imm, i = .sw rt rs imm) ∨ ∃ rt rs imm, i = .output rt rs imm := by
  have keeps {u : State} (hu : exec i s = .next u) (hm : u.imem = s.imem ∧ u.dmem = s.dmem ∧ u.iomem = s.iomem) :
      SameMemories s t := by
    obtain ⟨himem, hdmem, hiomem⟩ := hm
    rw [exec_next_unique ht hu]
    exact .of_eq himem hdmem hiomem
  cases execForm i with
  | move d y h => exact .inl (keeps (h s) (by simp))
  | alu d o y h => exact .inl (keeps (h s) (by simp))
  | load d o y h => exact .inl (keeps (h s) (by simp))
  | branch o taken off h => exact .inl (keeps (h s) (by simp))
  | jump a h => exact .inl (keeps (h s) (by simp))
  | link a h => exact .inl (keeps (h s) (by simp))
  | hiLo hi lo n o eq => exact .inl (keeps (eq s) (by simp))
  | vHiLo hi lo n eq => exact .inl (keeps (eq s) (by simp))
  | sw rt rs imm => exact .inr (.inl ⟨rt, rs, imm, rfl⟩)
  | output rt rs imm => exact .inr (.inr ⟨rt, rs, imm, rfl⟩)
  | bdt off => exact .inl (keeps (exec_bdt off s) (by simp))
  | bdf off => exact .inl (keeps (exec_bdf off s) (by simp))
  | setie => exact .inl (keeps (exec_setie s) (by simp))
  | reti => exact .inl (keeps (exec_reti s) (by simp))
  | brk => exact .inl (keeps (exec_brk s) (by simp))

/-- SW writes data memory alone (R57, R177). -/
theorem exec_sw_otherMemories {rt rs : RegNum} {imm : BitVec 16} (ht : exec (.sw rt rs imm) s = .next t) :
    SameImem s t ∧ SameIomem s t := by
  rw [exec_next_unique ht (exec_sw rt rs imm s)]
  exact ⟨fun _ => rfl, fun _ => rfl⟩

/-- OUTPUT writes I/O memory alone (R59, R211). -/
theorem exec_output_otherMemories {rt rs : RegNum} {imm : BitVec 16} (ht : exec (.output rt rs imm) s = .next t) :
    SameImem s t ∧ SameDmem s t := by
  rw [exec_next_unique ht (exec_output rt rs imm s)]
  exact ⟨fun _ => rfl, fun _ => rfl⟩

/-- Settles O22: of the two instructions that write a memory, each keeps the other's. -/
theorem onlySwAndOutputWriteMemory : Obligations.OnlySwAndOutputWriteMemory := by
  intro i s t ht
  obtain ⟨-, hdmem, hiomem⟩ | ⟨rt, rs, imm, rfl⟩ | ⟨rt, rs, imm, rfl⟩ := exec_memories_cases ht
  · exact ⟨fun _ => hdmem, fun _ => hiomem⟩
  · exact ⟨fun hsw => absurd rfl (hsw rt rs imm), fun _ => (exec_sw_otherMemories ht).2⟩
  · exact ⟨fun _ => (exec_output_otherMemories ht).2, fun hout => absurd rfl (hout rt rs imm)⟩

/-! ### Instruction memory (R50, R67) -/

/-- No instruction writes instruction memory (R67). -/
theorem exec_sameImem (ht : exec i s = .next t) : SameImem s t := by
  obtain ⟨himem, -⟩ | ⟨rt, rs, imm, rfl⟩ | ⟨rt, rs, imm, rfl⟩ := exec_memories_cases ht
  · exact himem
  · exact (exec_sw_otherMemories ht).1
  · exact (exec_output_otherMemories ht).1

/-- Nor does the host's move, the reset pulse (R300), the interrupt entry (R265) or the fetch. -/
theorem step_sameImem (h : step s = .next t) : SameImem s t := by
  rcases step_cases h with ⟨-, rfl⟩ | ⟨-, -, -, -, rfl⟩ | ⟨-, -, -, -, rfl⟩ | ⟨-, -, i, -, hx⟩ | ⟨-, -, e, -, rfl⟩
  · exact fun _ => rfl
  · exact fun _ => rfl
  · exact fun _ => rfl
  · obtain ⟨hfetch, -⟩ := (fetched_fetch s).memories
    exact fun a => (exec_sameImem hx a).trans (hfetch a)
  · obtain ⟨hfetch, -⟩ := ((fetched_fetch s).endRun (runEndOf e)).memories
    exact hfetch

/-- Settles O21, for the steps and for the instructions. -/
theorem instructionMemoryIsNeverWritten : Obligations.InstructionMemoryIsNeverWritten :=
  ⟨fun _ _ => step_sameImem, fun _ _ _ => exec_sameImem⟩

/-! ### A load after a store (R52, R56, R64) -/

/-- Addresses with the same low 12 bits reach the same byte (R52). -/
theorem idx_eq_of_mod_eq {a b : Word} (h : a.toNat % 4096 = b.toNat % 4096) : idx a = idx b := by
  rw [idx_eq_mod, idx_eq_mod, h]

/-- LW gives its destination the word of data memory that its address reaches (R56, R173). -/
theorem exec_lw_reg (rt rs : RegNum) (imm : BitVec 16) (s : State) : ∃ t, exec (.lw rt rs imm) s = .next t ∧
    t.reg rt = if rt = 0 then 0 else s.dmem.wordAt (idx (s.reg rs + sext16 imm)) (s.draws + statusDraws) :=
  ⟨_, rfl, State.setReg_reg_same _ _ _⟩

/-- INPUT gives its destination the word of I/O memory that its address reaches (R58, R210). -/
theorem exec_input_reg (rt rs : RegNum) (imm : BitVec 16) (s : State) : ∃ t, exec (.input rt rs imm) s = .next t ∧
    t.reg rt = if rt = 0 then 0 else s.iomem.wordAt (idx (s.reg rs + sext16 imm)) (s.draws + statusDraws) :=
  ⟨_, rfl, State.setReg_reg_same _ _ _⟩

/-- Settles O27: the store changes no register, so the load's address reaches the index of the store, where memory
gives the stored word whatever the draws. -/
theorem loadReturnsTheStoredWord : Obligations.LoadReturnsTheStoredWord := by
  refine ⟨fun rt rs rt' rs' imm imm' s => ⟨_, exec_sw rt rs imm s, fun h => ?_⟩,
    fun rt rs rt' rs' imm imm' s => ⟨_, exec_output rt rs imm s, fun h => ?_⟩⟩
  · obtain ⟨u, hu, hreg⟩ := exec_lw_reg rt' rs' imm' _
    refine ⟨u, hu, hreg.trans ?_⟩
    rw [State.setDmemWord_dmem, State.setDmemWord_reg, State.setStatus_reg, ← idx_eq_of_mod_eq h,
      Memory.wordAt_setWord_same]
  · obtain ⟨u, hu, hreg⟩ := exec_input_reg rt' rs' imm' _
    refine ⟨u, hu, hreg.trans ?_⟩
    rw [State.setIomemWord_iomem, State.setIomemWord_reg, State.setStatus_reg, ← idx_eq_of_mod_eq h,
      Memory.wordAt_setWord_same]

end Sys2Proof.Machine
end

section
/-! SUPPORT. The decoder and the encoder against each other (30 R80 to R92): every word that decodes is the
instruction's word with the ignored fields set to 0, and every instruction's word decodes to it. -/

namespace Sys2Proof

open Machine

/-! ### Decoding an encoded instruction (R87 to R89) -/

/-- The word of a well-formed instruction decodes to it. The cases are those of the tables: R88 with a shift amount
and without, R87 with a branch offset and without, the jumps, and R89 in each mode. -/
theorem decodeWord_encode {i : Instr} (h : i.wellFormed = true) : decodeWord (encode i) = .ok i := by
  cases i with
  | sll rd rt n | srl rd rt n | sra rd rt n | rr rd rt n =>
    have hn : (shamtBits n).toNat = n := shamtBits_toNat h
    rw [encode, decodeWord_of_rType (opField_rWord ..)]
    simp [decodeRType, hn]
  | brk | setie | jr _ | jalr _ | mfhi _ | mflo _ | mult _ _ | div _ _ | rb _ _ | rbo _ _
  | add _ _ _ | addu _ _ _ | sub _ _ _ | subu _ _ _ | and _ _ _ | or _ _ _ | xor _ _ _ | nor _ _ _
  | slt _ _ _ | sltu _ _ _ =>
    rw [encode, decodeWord_of_rType (opField_rWord ..)]
    simp [decodeRType]
  | bgez _ off | bltz _ off | blez _ off | bgtz _ off | beq _ _ off | bne _ _ off | bdt off | bdf off =>
    have hoff : (offBits off).toInt = off := offBits_toInt h
    simp [encode, decodeWord, hoff]
  | addi _ _ _ | slti _ _ _ | sltiu _ _ _ | andi _ _ _ | ori _ _ _ | xori _ _ _ | lui _ _ | input _ _ _
  | output _ _ _ | reti | lw _ _ _ | bsi _ _ _ | bci _ _ _ | sw _ _ _ =>
    simp [encode, decodeWord]
  | j addr | jal addr => simp [encode, decodeWord]
  | add8 _ _ _ | sub8 _ _ _ | and8 _ _ _ | or8 _ _ _ | not8 _ _ | xor8 _ _ _ | mul8 _ _ | div8 _ _ | vmfhi8 _
  | vmflo8 _ =>
    rw [encode, decodeWord_of_vType (opField_vWord ..), decodeVType_of_quad8 (mselField_vWord ..)]
    simp [decodeQuad8]
  | add16 _ _ _ | sub16 _ _ _ | and16 _ _ _ | or16 _ _ _ | not16 _ _ | xor16 _ _ _ | mul16 _ _ | div16 _ _
  | vmfhi16 _ | vmflo16 _ =>
    rw [encode, decodeWord_of_vType (opField_vWord ..), decodeVType_of_dual16 (mselField_vWord ..)]
    simp [decodeDual16]

/-- Settles O1, by the formats: the four bytes are the encoded word's, and that word decodes to the instruction. -/
theorem decodeUndoesEncode : Obligations.DecodeUndoesEncode := by
  intro i rest h
  rw [encodeBytes, decode_bytesOfWord, decodeWord_encode h]

end Sys2Proof
end

section
/-! SUPPORT. A word as its fields, and the word with the fields set to 0 that its instruction ignores (30 R81 to R84,
R90). -/

namespace Sys2Proof

open Machine

variable {w : Word} {i : Instr}

/-! ### A word as its fields (R81 to R84) -/

/-- The shift amount's five bits are the field itself (R81). -/
theorem shamtBits_shamtField (w : Word) : shamtBits (shamtField w) = vfsField w := by
  rw [shamtBits, shamtField, BitVec.ofNat_toNat, BitVec.setWidth_eq, vfsField]

/-- The offset's sixteen bits are the immediate field itself (R82, R92). -/
theorem offBits_offField (w : Word) : offBits (offField w) = immField w :=
  BitVec.ofInt_toInt

/-- The six fields of R-Type and V-Type words put together; I-Type and J-Type words join some of them. -/
def fieldWord (op : BitVec 6) (rs rt rd sel : BitVec 5) (low : BitVec 6) : Word := op ++ rs ++ rt ++ rd ++ sel ++ low

/-- Every word is its six fields. -/
theorem fieldWord_fields (w : Word) :
    fieldWord (opField w) (rsField w) (rtField w) (rdField w) (vfsField w) (functField w) = w := by
  ext k hk
  simp [fieldWord, opField, rsField, rtField, rdField, vfsField, functField]
  grind

/-- The immediate is the last three of the six fields (R82). -/
theorem fieldWord_eq_iWord (op : BitVec 6) (rs rt : RegNum) (w : Word) :
    fieldWord op rs rt (rdField w) (vfsField w) (functField w) = iWord op rs rt (immField w) := by
  ext k hk
  simp [fieldWord, iWord, rdField, vfsField, functField, immField]
  grind

/-- A jump's address is the last three fields of an I-Type word (R82, R83). -/
theorem iWord_eq_jWord (op : BitVec 6) (w : Word) :
    iWord op (rsField w) (rtField w) (immField w) = jWord op (addrField w) := by
  ext k hk
  simp [iWord, jWord, rsField, rtField, immField, addrField]
  grind

/-- The low six bits of a V-Type word without its reserved field are its mode (R84). -/
theorem functField_and_mode (w : Word) : functField w &&& ~~~0x3C = 0#4 ++ mselField w := by
  have hlow : functField w = w.extractLsb' 2 4 ++ mselField w := by
    ext k hk
    simp [functField, mselField]
    grind
  have hmask : ~~~(0x3C : BitVec 6) = 0#4 ++ BitVec.allOnes 2 := by decide
  rw [hlow, hmask, BitVec.and_append, BitVec.and_zero, BitVec.and_allOnes]

/-! ### The formats as six fields (R81, R82, R84) -/

theorem fieldWord_eq_rWord (rs rt rd shamt : BitVec 5) (funct : BitVec 6) :
    fieldWord 0x00 rs rt rd shamt funct = rWord rs rt rd shamt funct := rfl

theorem fieldWord_eq_vWord (rs rt rd vfs : BitVec 5) (msel : BitVec 2) :
    fieldWord 0x1F rs rt rd vfs (0#4 ++ msel) = vWord rs rt rd vfs msel := by
  rw [fieldWord, vWord, BitVec.append_assoc (x₁ := 0x1F#6 ++ rs ++ rt ++ rd ++ vfs)]
  rfl

theorem fieldWord_eq_iWord_zero (op : BitVec 6) (rs rt : RegNum) : fieldWord op rs rt 0 0 0 = iWord op rs rt 0 := by
  rw [fieldWord, iWord, BitVec.append_assoc, BitVec.append_assoc]
  rfl

/-! ### Setting fields to 0 (R90) -/

/-- All bits of a field, or none. -/
def fieldMask (p : Prop) [Decidable p] : BitVec 5 := if p then .allOnes 5 else 0

theorem and_not_fieldMask (x : BitVec 5) (p : Prop) [Decidable p] : x &&& ~~~fieldMask p = if p then 0 else x := by
  unfold fieldMask
  split
  · rw [BitVec.not_allOnes, BitVec.and_zero]; rfl
  · exact BitVec.and_allOnes

/-- A mask that leaves the opcode alone clears each other field by itself. -/
theorem and_not_fieldWord (w : Word) (rs rt rd sel : BitVec 5) (low : BitVec 6) :
    w &&& ~~~fieldWord 0 rs rt rd sel low =
      fieldWord (opField w) (rsField w &&& ~~~rs) (rtField w &&& ~~~rt) (rdField w &&& ~~~rd) (vfsField w &&& ~~~sel)
        (functField w &&& ~~~low) := by
  conv_lhs => rw [← fieldWord_fields w]
  unfold fieldWord
  rw [BitVec.not_append, BitVec.not_append, BitVec.not_append, BitVec.not_append, BitVec.not_append,
    BitVec.and_append, BitVec.and_append, BitVec.and_append, BitVec.and_append, BitVec.and_append]
  rw [show ~~~(0 : BitVec 6) = BitVec.allOnes 6 from rfl, BitVec.and_allOnes]

section Cleared

variable (p q r s : Prop) [Decidable p] [Decidable q] [Decidable r] [Decidable s]

/-- An R-Type word with some of its fields set to 0. -/
theorem rWord_cleared (hop : opField w = 0x00) :
    w &&& ~~~((if s then 0 else shamtMask) ||| (if p then rsMask else 0) ||| (if q then rtMask else 0)
        ||| (if r then rdMask else 0)) =
      rWord (if p then 0 else rsField w) (if q then 0 else rtField w) (if r then 0 else rdField w)
        (if s then vfsField w else 0) (functField w) := by
  have hmask : (if s then 0 else shamtMask) ||| (if p then rsMask else 0) ||| (if q then rtMask else 0)
      ||| (if r then rdMask else 0) =
      fieldWord 0 (fieldMask p) (fieldMask q) (fieldMask r) (fieldMask ¬s) 0 := by
    simp only [fieldMask, ite_not]
    split_ifs <;> rfl
  have hlow : functField w &&& ~~~0 = functField w := BitVec.and_allOnes
  rw [hmask, and_not_fieldWord, hop, hlow]
  simp only [and_not_fieldMask, ite_not, fieldWord_eq_rWord]

/-- A V-Type word with its reserved field and some others set to 0. -/
theorem vWord_cleared (hop : opField w = 0x1F) :
    w &&& ~~~(resMask ||| (if p then rsMask else 0) ||| (if q then rtMask else 0) ||| (if r then rdMask else 0)) =
      vWord (if p then 0 else rsField w) (if q then 0 else rtField w) (if r then 0 else rdField w) (vfsField w)
        (mselField w) := by
  have hmask : resMask ||| (if p then rsMask else 0) ||| (if q then rtMask else 0) ||| (if r then rdMask else 0) =
      fieldWord 0 (fieldMask p) (fieldMask q) (fieldMask r) 0 0x3C := by
    unfold fieldMask
    split_ifs <;> rfl
  have hvfs : vfsField w &&& ~~~0 = vfsField w := BitVec.and_allOnes
  rw [hmask, and_not_fieldWord, hop, functField_and_mode, hvfs, fieldWord_eq_vWord]
  simp only [and_not_fieldMask]

/-- An I-Type word with some of its fields set to 0. -/
theorem iWord_cleared (w : Word) :
    w &&& ~~~((if p then rsMask else 0) ||| (if q then rtMask else 0) ||| (if r then immMask else 0)) =
      iWord (opField w) (if p then 0 else rsField w) (if q then 0 else rtField w) (if r then 0 else immField w) := by
  have hmask : (if p then rsMask else 0) ||| (if q then rtMask else 0) ||| (if r then immMask else 0) =
      fieldWord 0 (fieldMask p) (fieldMask q) (fieldMask r) (fieldMask r) (if r then .allOnes 6 else 0) := by
    unfold fieldMask
    split_ifs <;> rfl
  rw [hmask, and_not_fieldWord]
  simp only [and_not_fieldMask]
  by_cases hr : r
  · simp only [if_pos hr, BitVec.not_allOnes, BitVec.and_zero]
    exact fieldWord_eq_iWord_zero _ _ _
  · have hlow : functField w &&& ~~~0 = functField w := BitVec.and_allOnes
    simp only [if_neg hr, hlow]
    exact fieldWord_eq_iWord _ _ _ _

end Cleared

/-! ### What the instruction of a word is encoded as (R90) -/

theorem encode_of_decodeRType (hop : opField w = 0x00) (h : decodeRType w = .ok i) :
    encode i = w &&& ~~~ignoredBits w := by
  rw [ignoredBits, if_pos hop, rWord_cleared _ _ _ _ hop]
  unfold decodeRType at h
  split at h <;> cases h
  all_goals next hf => rw [hf]; simp [encode, shamtBits_shamtField]

theorem encode_of_decodeQuad8 (hop : opField w = 0x1F) (hm : mselField w = 0b01) (h : decodeQuad8 w = .ok i) :
    encode i = w &&& ~~~ignoredBits w := by
  rw [ignoredBits, if_neg (by rw [hop]; decide), if_pos hop, vWord_cleared _ _ _ hop, hm]
  unfold decodeQuad8 at h
  split at h <;> cases h
  all_goals next hf => rw [hf]; simp [encode]

theorem encode_of_decodeDual16 (hop : opField w = 0x1F) (hm : mselField w = 0b10) (h : decodeDual16 w = .ok i) :
    encode i = w &&& ~~~ignoredBits w := by
  rw [ignoredBits, if_neg (by rw [hop]; decide), if_pos hop, vWord_cleared _ _ _ hop, hm]
  unfold decodeDual16 at h
  split at h <;> cases h
  all_goals next hf => rw [hf]; simp [encode]

theorem encode_of_decodeVType (hop : opField w = 0x1F) (h : decodeVType w = .ok i) :
    encode i = w &&& ~~~ignoredBits w := by
  unfold decodeVType at h
  split at h
  case h_1 hm => exact encode_of_decodeQuad8 hop hm h
  case h_2 hm => exact encode_of_decodeDual16 hop hm h
  case h_3 => cases h

theorem encode_of_decodeWord (h : decodeWord w = .ok i) : encode i = w &&& ~~~ignoredBits w := by
  by_cases h0 : opField w = 0x00
  · exact encode_of_decodeRType h0 (decodeWord_of_rType h0 ▸ h)
  by_cases hv : opField w = 0x1F
  · exact encode_of_decodeVType hv (decodeWord_of_vType hv ▸ h)
  rw [ignoredBits, if_neg h0, if_neg hv, iWord_cleared]
  unfold decodeWord at h
  split at h
  case h_1 hop => exact absurd hop h0
  case h_22 hop => exact absurd hop hv
  case h_3 hop | h_4 hop =>
    cases h
    rw [hop]
    simp [encode, iWord_eq_jWord]
  all_goals cases h
  all_goals next hop => rw [hop]; simp [encode, offBits_offField]

/-- Settles O2, table by table: each row encodes the fields of the word that it does not ignore. -/
theorem encodeOfDecodedClearsIgnoredFields : Obligations.EncodeOfDecodedClearsIgnoredFields :=
  fun _ _ => encode_of_decodeWord

end Sys2Proof
end

section
/-! SUPPORT. Which words decode, and to what (30 R80, R86 to R91): every word outside the three causes of R260 and the
two modes of R222 decodes, to a well-formed instruction. -/

namespace Sys2Proof

open Machine

variable {w : Word} {i : Instr}

/-! ### The words of the tables decode (R87 to R89) -/

theorem decodeRType_of_listed (h : functField w ∈ rTypeFuncts) : ∃ i, decodeRType w = .ok i := by
  unfold decodeRType
  split
  case h_25 => simp_all [rTypeFuncts]
  all_goals exact ⟨_, rfl⟩

theorem decodeQuad8_of_listed (h : vfsField w ∈ vTypeFuncts) : ∃ i, decodeQuad8 w = .ok i := by
  unfold decodeQuad8
  split
  case h_11 => simp_all [vTypeFuncts]
  all_goals exact ⟨_, rfl⟩

theorem decodeDual16_of_listed (h : vfsField w ∈ vTypeFuncts) : ∃ i, decodeDual16 w = .ok i := by
  unfold decodeDual16
  split
  case h_11 => simp_all [vTypeFuncts]
  all_goals exact ⟨_, rfl⟩

theorem decodeWord_of_listed (h0 : opField w ≠ 0x00) (hv : opField w ≠ 0x1F) (h : opField w ∈ majorOpcodes) :
    ∃ i, decodeWord w = .ok i := by
  unfold decodeWord
  split
  case h_1 hw => exact absurd hw h0
  case h_22 hw => exact absurd hw hv
  case h_27 => simp_all [majorOpcodes]
  all_goals exact ⟨_, rfl⟩

/-! ### The two ways not to decode (R260, R222) -/

/-- The word is in none of the tables that the decoder looks it up in (R260). -/
def IllegalWord (w : Word) : Prop :=
  (opField w = 0x00 ∧ functField w ∉ rTypeFuncts) ∨
  (opField w = 0x1F ∧ (mselField w = 0b01 ∨ mselField w = 0b10) ∧ vfsField w ∉ vTypeFuncts) ∨
  (opField w ≠ 0x00 ∧ opField w ≠ 0x1F ∧ opField w ∉ majorOpcodes)

/-- A V-Type word in neither mode (R222). -/
def ModelessWord (w : Word) : Prop := opField w = 0x1F ∧ (mselField w = 0b00 ∨ mselField w = 0b11)

/-- A V-Type word that is neither has a mode, and its function is in the table of that mode. -/
theorem decodeVType_of_listed (hv : opField w = 0x1F) (hi : ¬ IllegalWord w) (hm : ¬ ModelessWord w) :
    ∃ i, decodeVType w = .ok i := by
  have hmode : mselField w = 0b01 ∨ mselField w = 0b10 := by
    have hfour : ∀ m : BitVec 2, (m = 0b01 ∨ m = 0b10) ∨ m = 0b00 ∨ m = 0b11 := by decide
    exact (hfour (mselField w)).resolve_right fun hno => hm ⟨hv, hno⟩
  have hvfs : vfsField w ∈ vTypeFuncts := not_not.1 fun hf => hi (.inr (.inl ⟨hv, hmode, hf⟩))
  rcases hmode with h | h
  · rw [decodeVType_of_quad8 h]
    exact decodeQuad8_of_listed hvfs
  · rw [decodeVType_of_dual16 h]
    exact decodeDual16_of_listed hvfs

/-- What the decoder makes of a word: three answers, each with the words that get it. -/
theorem decodeWord_cases (w : Word) :
    (IllegalWord w ∧ decodeWord w = .error .illegalOp) ∨ (ModelessWord w ∧ decodeWord w = .error .vtypeMode) ∨
      (¬ IllegalWord w ∧ ¬ ModelessWord w ∧ ∃ i, decodeWord w = .ok i) := by
  by_cases hi : IllegalWord w
  · exact .inl ⟨hi, decodeWord_illegalOp hi⟩
  by_cases hm : ModelessWord w
  · exact .inr (.inl ⟨hm, decodeWord_vtypeMode hm.1 hm.2⟩)
  refine .inr (.inr ⟨hi, hm, ?_⟩)
  by_cases h0 : opField w = 0x00
  · rw [decodeWord_of_rType h0]
    exact decodeRType_of_listed (not_not.1 fun hf => hi (.inl ⟨h0, hf⟩))
  by_cases hv : opField w = 0x1F
  · rw [decodeWord_of_vType hv]
    exact decodeVType_of_listed hv hi hm
  · exact decodeWord_of_listed h0 hv (not_not.1 fun hop => hi (.inr (.inr ⟨h0, hv, hop⟩)))

theorem decodeWord_eq_illegalOp_iff : decodeWord w = .error .illegalOp ↔ IllegalWord w := by
  refine ⟨fun h => ?_, decodeWord_illegalOp⟩
  obtain ⟨hi, -⟩ | ⟨-, hw⟩ | ⟨-, -, j, hw⟩ := decodeWord_cases w
  · exact hi
  · cases h.symm.trans hw
  · cases h.symm.trans hw

theorem decodeWord_eq_vtypeMode_iff : decodeWord w = .error .vtypeMode ↔ ModelessWord w := by
  refine ⟨fun h => ?_, fun ⟨hop, hm⟩ => decodeWord_vtypeMode hop hm⟩
  obtain ⟨-, hw⟩ | ⟨hm, -⟩ | ⟨-, -, j, hw⟩ := decodeWord_cases w
  · cases h.symm.trans hw
  · exact hm
  · cases h.symm.trans hw

/-- `truncated` is the answer to too few bytes, never to a word (R80). -/
theorem decodeWord_ne_truncated (w : Word) : decodeWord w ≠ .error .truncated := by
  intro h
  obtain ⟨-, hw⟩ | ⟨-, hw⟩ | ⟨-, -, j, hw⟩ := decodeWord_cases w <;> cases h.symm.trans hw

/-- Settles O4, from the three answers of the decoder. -/
theorem decoderRefusesExactlyTheUnlistedWords : Obligations.DecoderRefusesExactlyTheUnlistedWords :=
  fun w => ⟨decodeWord_eq_illegalOp_iff, decodeWord_eq_vtypeMode_iff, decodeWord_ne_truncated w⟩

/-! ### What decodes is well formed (R80 to R82, R92) -/

theorem wellFormed_of_decodeRType (h : decodeRType w = .ok i) : i.wellFormed = true := by
  unfold decodeRType at h
  split at h <;> cases h
  case h_1 | h_2 | h_3 | h_24 => exact shamtFits_shamtField w
  all_goals rfl

theorem wellFormed_of_decodeVType (h : decodeVType w = .ok i) : i.wellFormed = true := by
  unfold decodeVType at h
  split at h
  case h_1 =>
    unfold decodeQuad8 at h
    split at h <;> cases h <;> rfl
  case h_2 =>
    unfold decodeDual16 at h
    split at h <;> cases h <;> rfl
  case h_3 => cases h

theorem wellFormed_of_decodeWord (h : decodeWord w = .ok i) : i.wellFormed = true := by
  unfold decodeWord at h
  split at h
  case h_1 => exact wellFormed_of_decodeRType h
  case h_22 => exact wellFormed_of_decodeVType h
  all_goals cases h
  case h_2 | h_5 | h_6 | h_7 | h_8 | h_10 | h_17 | h_18 => exact offsetFits_offField w
  all_goals rfl

/-- Four bytes read as a word and laid out again are the bytes (R53). -/
theorem bytesOfWord_wordOfBytes (b0 b1 b2 b3 : Byte) :
    bytesOfWord (wordOfBytes b0 b1 b2 b3) = [b0, b1, b2, b3] := by
  simp only [bytesOfWord, wordByte, wordOfBytes, List.cons.injEq, and_true]
  refine ⟨?_, ?_, ?_, ?_⟩ <;> ext k hk <;> simp <;> grind

/-- Bytes that decode are those of a word that decodes, and the rest (R80). -/
theorem decode_eq_ok {bytes rest : List Byte} (h : decode bytes = .ok (i, rest)) :
    ∃ w, bytes = bytesOfWord w ++ rest ∧ decodeWord w = .ok i := by
  unfold decode at h
  split at h
  case h_2 => cases h
  case h_1 b0 b1 b2 b3 tail =>
    cases hw : decodeWord (wordOfBytes b0 b1 b2 b3) with
    | error e => rw [hw] at h; cases h
    | ok j =>
      rw [hw] at h
      cases h
      exact ⟨_, by rw [bytesOfWord_wordOfBytes]; rfl, hw⟩

/-- Settles O5: the decoder reads the first four bytes, and the tables give field values only. -/
theorem decodedInstructionIsWellFormed : Obligations.DecodedInstructionIsWellFormed := by
  intro bytes rest i h
  obtain ⟨w, hbytes, hw⟩ := decode_eq_ok h
  exact ⟨wellFormed_of_decodeWord hw, w, hbytes, hw⟩

/-! ### Words as the spec prints them -/

/-- A row's word that is the word of an instruction is looked up as that instruction. -/
theorem decodeTableWord_of_encode {nbits n : Nat} (hwf : i.wellFormed = true) (h : encode i = tableWord nbits n) :
    decodeTableWord nbits n = some i := by
  have hdecode := decode_bytesOfWord (encode i) []
  rw [List.append_nil, decodeWord_encode hwf] at hdecode
  rw [decodeTableWord, ← h, hdecode]

/-- Settles O6: each printed word is what its instruction is encoded as. -/
theorem specWordsDecodeAsPrinted : Obligations.SpecWordsDecodeAsPrinted := by
  refine ⟨?_, ?_, ?_, ?_, ?_, ?_, ?_, ?_, ?_, ?_, ?_, ?_, ?_⟩
  all_goals exact decodeTableWord_of_encode rfl rfl

end Sys2Proof
end

section
/-! SUPPORT. Words that differ only in bits that their instruction ignores (30 R90). -/

namespace Sys2Proof

open Machine

variable {w w' : Word}

/-! ### The fields that the decoder looks words up by (R86) -/

/-- Two words with the same opcode and, where it leads to a second table, the same function and mode. -/
structure SameSelectors (w w' : Word) : Prop where
  op : opField w' = opField w
  funct : opField w = 0x00 → functField w' = functField w
  vfs : opField w = 0x1F → vfsField w' = vfsField w
  msel : opField w = 0x1F → mselField w' = mselField w

theorem SameSelectors.ignoredBits_eq (h : SameSelectors w w') : ignoredBits w' = ignoredBits w := by
  unfold ignoredBits
  rw [h.op]
  split
  case isTrue h0 => rw [h.funct h0]
  case isFalse =>
    split
    case isTrue hv => rw [h.vfs hv]
    case isFalse => rfl

theorem SameSelectors.illegalWord_iff (h : SameSelectors w w') : IllegalWord w' ↔ IllegalWord w := by
  unfold IllegalWord
  rw [h.op]
  refine or_congr (and_congr_right fun h0 => ?_) (or_congr (and_congr_right fun hv => ?_) Iff.rfl)
  · rw [h.funct h0]
  · rw [h.vfs hv, h.msel hv]

theorem SameSelectors.modelessWord_iff (h : SameSelectors w w') : ModelessWord w' ↔ ModelessWord w := by
  unfold ModelessWord
  rw [h.op]
  exact and_congr_right fun hv => by rw [h.msel hv]

/-! ### Decoding sees no ignored bit -/

/-- A well-formed instruction is determined by its word. -/
theorem encode_injective {i j : Instr} (hi : i.wellFormed = true) (hj : j.wellFormed = true)
    (h : encode i = encode j) : i = j := by
  have hij := decodeWord_encode hi
  rw [h, decodeWord_encode hj] at hij
  cases hij
  rfl

/-- Words in the same place of the tables that differ in ignored bits only decode alike. -/
theorem decodeWord_eq_of_sameSelectors (hsel : SameSelectors w w')
    (hclear : w' &&& ~~~ignoredBits w = w &&& ~~~ignoredBits w) : decodeWord w' = decodeWord w := by
  obtain ⟨hi, hw⟩ | ⟨hm, hw⟩ | ⟨hi, hm, i, hw⟩ := decodeWord_cases w
  · rw [hw, decodeWord_illegalOp (hsel.illegalWord_iff.2 hi)]
  · rw [hw, decodeWord_eq_vtypeMode_iff.2 (hsel.modelessWord_iff.2 hm)]
  · obtain ⟨hi', -⟩ | ⟨hm', -⟩ | ⟨-, -, j, hw'⟩ := decodeWord_cases w'
    · exact absurd (hsel.illegalWord_iff.1 hi') hi
    · exact absurd (hsel.modelessWord_iff.1 hm') hm
    · have henc : encode j = encode i := by
        rw [encode_of_decodeWord hw', encode_of_decodeWord hw, hsel.ignoredBits_eq, hclear]
      rw [hw, hw', encode_injective (wellFormed_of_decodeWord hw') (wellFormed_of_decodeWord hw) henc]

/-! ### Flipping ignored bits -/

/-- No word ignores a bit of its opcode, of its R-Type function or of its V-Type function and mode. -/
theorem opField_ignoredBits (w : Word) : opField (ignoredBits w) = 0 := by
  unfold ignoredBits
  split_ifs <;> rfl

theorem functField_ignoredBits (h : opField w = 0x00) : functField (ignoredBits w) = 0 := by
  rw [ignoredBits, if_pos h]
  split_ifs <;> rfl

theorem vfsField_mselField_ignoredBits (h : opField w = 0x1F) :
    vfsField (ignoredBits w) = 0 ∧ mselField (ignoredBits w) = 0 := by
  rw [ignoredBits, if_neg (by rw [h]; decide), if_pos h]
  split_ifs <;> exact ⟨rfl, rfl⟩

/-- Flipping bits outside a field leaves the field alone. -/
theorem extractLsb'_flip {g : Word} {start len : Nat} (w m : Word) (h : g.extractLsb' start len = 0) :
    (w ^^^ (m &&& g)).extractLsb' start len = w.extractLsb' start len := by
  rw [BitVec.extractLsb'_xor, BitVec.extractLsb'_and, h]
  simp

theorem sameSelectors_flip (w m : Word) : SameSelectors w (w ^^^ (m &&& ignoredBits w)) where
  op := extractLsb'_flip w m (opField_ignoredBits w)
  funct h := extractLsb'_flip w m (functField_ignoredBits h)
  vfs h := extractLsb'_flip w m (vfsField_mselField_ignoredBits h).1
  msel h := extractLsb'_flip w m (vfsField_mselField_ignoredBits h).2

theorem flip_and_not (w m g : Word) : (w ^^^ (m &&& g)) &&& ~~~g = w &&& ~~~g := by
  ext k hk
  cases hg : g[k] <;> simp [hg]

/-- Settles O3: the flipped word is looked up in the same place, and its instruction is encoded alike. -/
theorem ignoredFieldsChangeNothing : Obligations.IgnoredFieldsChangeNothing :=
  fun w m => decodeWord_eq_of_sameSelectors (sameSelectors_flip w m) (flip_and_not w m _)

end Sys2Proof
end

section
/-! SUPPORT. The rows of the decoder's tables (30 R86 to R89), for the statements that name the words of one
instruction: a row of a table is a row of the decoder. -/

namespace Sys2Proof.Machine

theorem decodesRType_of_row {funct : BitVec 6} {f : Word → Instr}
    (row : ∀ w, functField w = funct → decodeRType w = .ok (f w)) : DecodesRType funct f :=
  fun w hop hf => (decodeWord_of_rType hop).trans (row w hf)

theorem decodesVType_of_row_quad8 {vfs : BitVec 5} {f : Word → Instr}
    (row : ∀ w, vfsField w = vfs → decodeQuad8 w = .ok (f w)) : DecodesVType vfs 0b01 f :=
  fun w hop hvfs hm => ((decodeWord_of_vType hop).trans (decodeVType_of_quad8 hm)).trans (row w hvfs)

theorem decodesVType_of_row_dual16 {vfs : BitVec 5} {f : Word → Instr}
    (row : ∀ w, vfsField w = vfs → decodeDual16 w = .ok (f w)) : DecodesVType vfs 0b10 f :=
  fun w hop hvfs hm => ((decodeWord_of_vType hop).trans (decodeVType_of_dual16 hm)).trans (row w hvfs)

end Sys2Proof.Machine
end

section
/-! SUPPORT. The flags of the comparisons, the shifts and the multiplication, as conditions on the operands (10 R34 to
R36). -/

namespace Sys2Proof.Machine

variable (a b t : Word) (f : Flags) (k : Nat)

/-! ### Comparisons (R34) -/

theorem lessSigned_eq_zero_iff : lessSigned a b = 0 ↔ ¬ a.toInt < b.toInt := by
  rw [lessSigned]; split_ifs with h <;> simp [h]

theorem lessUnsigned_eq_zero_iff : lessUnsigned a b = 0 ↔ ¬ a.toNat < b.toNat := by
  rw [lessUnsigned]; split_ifs with h <;> simp [h]

/-- The flags of SLT and SLTI: N is 0, Z says that the comparison is false. -/
theorem flSlt_lessSigned_flags : (f.replace (flSlt (lessSigned a b)) k).n = false ∧
    ((f.replace (flSlt (lessSigned a b)) k).z = true ↔ ¬ a.toInt < b.toInt) :=
  ⟨rfl, (isZero_iff _).trans (lessSigned_eq_zero_iff a b)⟩

/-- The one flag that SLTU and SLTIU define. -/
theorem flSltu_lessUnsigned_flags :
    (f.replace (flSltu (lessUnsigned a b)) k).z = true ↔ ¬ a.toNat < b.toNat :=
  (isZero_iff _).trans (lessUnsigned_eq_zero_iff a b)

/-! ### Shifts by one place (R35) -/

/-- A word shifted left by one place is zero when its bits 30:0 are. -/
theorem isZero_shiftLeft_one_iff : isZero (t <<< 1) = true ↔ ∀ j < 31, t.getLsbD j = false := by
  rw [isZero_iff]
  constructor
  · intro h j hj
    have hbit : (t <<< 1).getLsbD (j + 1) = false := by rw [h, BitVec.ofNat_eq_ofNat, BitVec.getLsbD_zero]
    rwa [BitVec.getLsbD_shiftLeft, decide_eq_true (by omega), decide_eq_false (by omega), Nat.add_sub_cancel] at hbit
  · intro h
    apply BitVec.eq_of_getLsbD_eq
    intro j hj
    cases j with
    | zero => simp
    | succ j => simp [h j (by omega)]

/-- A word shifted right by one place is zero when its bits 31:1 are. -/
theorem isZero_shiftRight_one_iff : isZero (t >>> 1) = true ↔ ∀ j < 32, 1 ≤ j → t.getLsbD j = false := by
  rw [isZero_iff]
  constructor
  · intro h j _ h1
    have hbit : (t >>> 1).getLsbD (j - 1) = false := by rw [h, BitVec.ofNat_eq_ofNat, BitVec.getLsbD_zero]
    rwa [BitVec.getLsbD_ushiftRight, Nat.add_sub_of_le h1] at hbit
  · intro h
    apply BitVec.eq_of_getLsbD_eq
    intro j hj
    rw [BitVec.getLsbD_ushiftRight, BitVec.ofNat_eq_ofNat, BitVec.getLsbD_zero]
    by_cases h31 : 1 + j < 32
    · exact h _ h31 (by omega)
    · exact BitVec.getLsbD_of_ge t _ (by omega)

/-- `FL_SHIFT(SLL, t)` bit by bit. -/
theorem flShiftLeft_flags : (f.replace (flShiftLeft t) k).c = t.getLsbD 31 ∧
    (f.replace (flShiftLeft t) k).n = t.getLsbD 30 ∧
    ((f.replace (flShiftLeft t) k).z = true ↔ ∀ j < 31, t.getLsbD j = false) :=
  ⟨rfl, rfl, isZero_shiftLeft_one_iff t⟩

/-- `FL_SHIFT(SRL, t)` bit by bit. -/
theorem flShiftRight_flags : (f.replace (flShiftRight t) k).c = t.getLsbD 0 ∧
    (f.replace (flShiftRight t) k).n = false ∧
    ((f.replace (flShiftRight t) k).z = true ↔ ∀ j < 32, 1 ≤ j → t.getLsbD j = false) :=
  ⟨rfl, rfl, isZero_shiftRight_one_iff t⟩

/-- `FL_SHIFT(SRA, t)` bit by bit. -/
theorem flShiftRightArith_flags : (f.replace (flShiftRightArith t) k).c = t.getLsbD 0 ∧
    (f.replace (flShiftRightArith t) k).n = t.msb ∧
    ((f.replace (flShiftRightArith t) k).z = true ↔ ∀ j < 32, 1 ≤ j → t.getLsbD j = false) :=
  ⟨rfl, rfl, isZero_shiftRight_one_iff t⟩

/-! ### The multiplication (R36) -/

/-- The flags of MULT are the sign and the zero of the exact product. -/
theorem flMult_product_flags :
    ((f.replace (flMult (product a b)) k).n = true ↔ a.toInt * b.toInt < 0) ∧
    ((f.replace (flMult (product a b)) k).z = true ↔ a.toInt * b.toInt = 0) := by
  rw [← product_toInt a b]
  refine ⟨msb_iff_neg (product a b), ?_⟩
  rw [Flags.replace_z, flMult, drivenBit_some, beq_iff_eq, ← BitVec.toInt_inj]
  simp

end Sys2Proof.Machine
end

section
/-! SUPPORT. The arithmetic shift under both values of SRA_FILL (40 R128). -/

namespace Sys2Proof.Machine

variable (t : Word) (n : Nat)

/-- SRA under `rtl` below bit 31: the bits `n` places higher, 0 where there are none. -/
theorem getLsbD_shiftRightArith_rtl_low {k : Nat} (hk : k < 31) :
    (shiftRightArith .rtl t n).getLsbD k = (decide (n + k < 32) && t.getLsbD (n + k)) := by
  rw [getLsbD_shiftRightArith_rtl t n (by omega), if_pos hk]
  by_cases h : n + k < 32
  · simp [h]
  · simp [h, BitVec.getLsbD_of_ge t (n + k) (by omega)]

/-- SRA under `isa`: the bits `n` places higher, the sign where there are none. -/
theorem getLsbD_shiftRightArith_isa {k : Nat} (hk : k < 32) :
    (shiftRightArith .isa t n).getLsbD k = if n + k < 32 then t.getLsbD (n + k) else t.msb := by
  rw [shiftRightArith, BitVec.getLsbD_sshiftRight]
  simp [hk]

/-- Where the readings agree, each of them is the arithmetic shift. -/
theorem shiftRightArith_eq_sshiftRight {t : Word} {n : Nat} (fill : SraFill) (h : n ≤ 1 ∨ t.msb = false) :
    shiftRightArith fill t n = t.sshiftRight n := by
  cases fill with
  | rtl => exact shiftRightArith_rtl_eq_isa h
  | isa => rfl

end Sys2Proof.Machine
end

section
/-! SUPPORT. What the R-Type instructions do, and those of other types that share their meaning (40 R112 to R136, 41
R162, R175, R176, 44 R239, R240). Each meaning is one of the state's operations, whose effect is a lemma. -/

namespace Sys2Proof.Machine

/-! ### Frames of the operations -/

theorem SameRest.refl (s : State) : SameRest s s :=
  ⟨⟨rfl, rfl⟩, ⟨rfl, rfl⟩, ⟨fun _ => rfl, fun _ => rfl, fun _ => rfl⟩, rfl, rfl, rfl, rfl, rfl, rfl⟩

/-- A jump leaves alone all that `SameRest` names. -/
theorem SameRest.setPc {s t : State} (h : SameRest s t) (a : Word) : SameRest s (t.setPc a) := h

/-- Toggling IE leaves alone all that `SameRest` names. -/
theorem SameRest.setIe {s t : State} (h : SameRest s t) (b : Bool) : SameRest s (t.setIe b) := h

/-- An involution applied to a register's own content undoes itself, but for register 0 (R21). -/
theorem State.setReg_involutive_reg (s : State) {d : RegNum} (hd : d ≠ 0) {g : Word → Word} (a : Word)
    (hg : g (g a) = a) :
    ((s.setReg d (g a)).setReg d (g ((s.setReg d (g a)).reg d))).reg d = a := by
  simp only [State.setReg_reg_same, if_neg hd, hg]

/-! ### Sums, differences and bitwise operations -/

/-- Settles O29: both are the status write `FL_ADD` and a register write. -/
theorem addAndAddiResults : Obligations.AddAndAddiResults := by
  refine ⟨decodesRType_of_row fun w hf => ?_, fun rd rs rt s => ⟨_, rfl, ?_⟩, fun w hop => ?_,
    fun rt rs imm s => ⟨_, rfl, ?_⟩⟩
  · simp [decodeRType, hf]
  · exact aluEffect_setReg _ _ _ _ (flAdd_addFlags ..)
  · simp [decodeWord, hop]
  · exact aluEffect_setReg _ _ _ _ (flAdd_addFlags ..)

/-- Settles O30: ADD's register write under the status write `FL_ADDU`. -/
theorem adduResult : Obligations.AdduResult := by
  refine ⟨decodesRType_of_row fun w hf => ?_, fun rd rs rt s => ⟨_, rfl, ?_⟩⟩
  · simp [decodeRType, hf]
  · exact aluEffect_setReg _ _ _ _ (flAddu_adduFlags ..)

/-- Settles O31: SUB and SUBU differ in their flags only. -/
theorem subAndSubuResults : Obligations.SubAndSubuResults := by
  refine ⟨decodesRType_of_row fun w hf => ?_, fun rd rs rt s => ⟨_, rfl, ?_⟩,
    decodesRType_of_row fun w hf => ?_, fun rd rs rt s => ⟨_, rfl, ?_⟩⟩
  · simp [decodeRType, hf]
  · exact aluEffect_setReg _ _ _ _ (flSub_subFlags ..)
  · simp [decodeRType, hf]
  · exact aluEffect_setReg _ _ _ _ (flSubu_subuFlags ..)

/-- A result written with the flags of `FL_LOGIC`. -/
theorem aluEffect_flLogic (s : State) (rd : RegNum) (y : Word) :
    AluEffect rd y (LogicFlags y) s ((s.setStatus (flLogic y)).setReg rd y) :=
  aluEffect_setReg s _ rd y (flLogic_logicFlags ..)

/-- Settles O32: four rows of the table, one effect. -/
theorem logicRegisterResults : Obligations.LogicRegisterResults := by
  refine ⟨decodesRType_of_row fun w hf => ?and, fun _ _ _ s => ⟨_, rfl, aluEffect_flLogic s _ _⟩,
    decodesRType_of_row fun w hf => ?or, fun _ _ _ s => ⟨_, rfl, aluEffect_flLogic s _ _⟩,
    decodesRType_of_row fun w hf => ?xor, fun _ _ _ s => ⟨_, rfl, aluEffect_flLogic s _ _⟩,
    decodesRType_of_row fun w hf => ?nor, fun _ _ _ s => ⟨_, rfl, aluEffect_flLogic s _ _⟩⟩
  case and | or | xor | nor => simp [decodeRType, hf]

/-! ### Comparisons -/

/-- Settles O34: the register forms and the immediate forms differ in the second operand only. -/
theorem setLessThanResults : Obligations.SetLessThanResults := by
  refine ⟨decodesRType_of_row fun w hf => ?slt, fun _ _ _ s => ⟨_, rfl, ?signed⟩,
    decodesRType_of_row fun w hf => ?sltu, fun _ _ _ s => ⟨_, rfl, ?unsigned⟩,
    fun w hop => ?slti, fun _ _ _ s => ⟨_, rfl, ?signedImm⟩,
    fun w hop => ?sltiu, fun _ _ _ s => ⟨_, rfl, ?unsignedImm⟩⟩
  case slt | sltu => simp [decodeRType, hf]
  case slti | sltiu => simp [decodeWord, hop]
  case signed | signedImm => exact aluEffect_setReg s _ _ _ (flSlt_lessSigned_flags ..)
  case unsigned | unsignedImm => exact aluEffect_setReg s _ _ _ (flSltu_lessUnsigned_flags ..)

/-! ### Shifts and rotation -/

/-- Settles O35: the results are `shiftLeft` and `shiftRight` as numbers. -/
theorem logicalShiftResults : Obligations.LogicalShiftResults := by
  refine ⟨decodesRType_of_row fun w hf => ?_, fun rd rt n s _ => ⟨_, rfl, ?_⟩,
    decodesRType_of_row fun w hf => ?_, fun rd rt n s _ => ⟨_, rfl, ?_⟩⟩
  · simp [decodeRType, hf]
  · rw [← shiftLeft_eq]
    exact aluEffect_setReg s _ _ _ (flShiftLeft_flags ..)
  · simp [decodeRType, hf]
  · rw [← shiftRight_eq]
    exact aluEffect_setReg s _ _ _ (flShiftRight_flags ..)

/-- Settles O36: the value that SRA writes, under each value of the parameter. -/
theorem arithmeticShiftResult : Obligations.ArithmeticShiftResult := by
  refine ⟨decodesRType_of_row fun w hf => ?row, fun rd rt n s _ => ⟨_,
    shiftRightArith s.variant.sraFill (s.reg rt) n, rfl, fun hfill => ?rtl, fun hfill k hk => ?isa,
    shiftRightArith_eq_sshiftRight _, aluEffect_setReg s _ _ _ (flShiftRightArith_flags ..)⟩⟩
  case row => simp [decodeRType, hf]
  case rtl =>
    rw [hfill]
    exact ⟨fun k hk => getLsbD_shiftRightArith_rtl_low _ n hk, msb_shiftRightArith_rtl _ n⟩
  case isa =>
    rw [hfill]
    exact getLsbD_shiftRightArith_isa _ n hk

/-- Settles O37: a register write alone, whose value is known bit by bit. -/
theorem rotateRightResult : Obligations.RotateRightResult := by
  refine ⟨decodesRType_of_row fun w hf => ?_, fun rd rt n s hn => ⟨_, _, rfl,
    fun k hk => getLsbD_rotateRight (s.reg rt) hn hk, moveEffect_setReg s rd _⟩⟩
  simp [decodeRType, hf]

/-! ### Reversals -/

/-- Settles O38: both reversals are involutions. -/
theorem bitAndByteReversalResults : Obligations.BitAndByteReversalResults := by
  refine ⟨decodesRType_of_row fun w hf => ?_, fun rd rs s => ⟨_, reverseBits (s.reg rs), rfl,
      fun k hk => getLsbD_reverseBits _ hk, moveEffect_setReg s rd _, fun hrd => ⟨_, rfl, ?_⟩⟩,
    decodesRType_of_row fun w hf => ?_, fun rd rs s => ⟨_, reverseBytes (s.reg rs), rfl,
      wordByte_reverseBytes _, moveEffect_setReg s rd _, fun hrd => ⟨_, rfl, ?_⟩⟩⟩
  · simp [decodeRType, hf]
  · exact State.setReg_involutive_reg s hrd _ (reverseBits_reverseBits _)
  · simp [decodeRType, hf]
  · exact State.setReg_involutive_reg s hrd _ (reverseBytes_reverseBytes _)

/-! ### HI and LO -/

/-- Settles O39: the two halves of the exact product, and its sign and zero. -/
theorem multResult : Obligations.MultResult := by
  refine ⟨decodesRType_of_row fun w hf => ?row, fun rs rt s => ?effect⟩
  case row => simp [decodeRType, hf]
  case effect =>
    have hproduct := (congrArg BitVec.toInt (hi_append_lo _)).trans (product_toInt (s.reg rs) (s.reg rt))
    obtain ⟨hneg, hzero⟩ := flMult_product_flags (s.reg rs) (s.reg rt) s.flags s.draws
    obtain ⟨-, hvector, hmemories, hcontrol⟩ := SameRest.refl s
    exact ⟨_, exec_mult_eq_hiLo rs rt s, hproduct, hneg, hzero, rfl,
      ⟨fun _ => rfl, rfl, hmemories, hcontrol⟩, hvector⟩

/-- Settles O41: six rows of the tables, each a register write alone. -/
theorem movesFromHiAndLo : Obligations.MovesFromHiAndLo := by
  refine ⟨decodesRType_of_row fun w hf => ?mfhi, fun rd s => ⟨_, rfl, moveEffect_setReg s rd _⟩,
    decodesRType_of_row fun w hf => ?mflo, fun rd s => ⟨_, rfl, moveEffect_setReg s rd _⟩,
    decodesVType_of_row_quad8 fun w hf => ?vmfhi8, fun rd s => ⟨_, rfl, moveEffect_setReg s rd _⟩,
    decodesVType_of_row_dual16 fun w hf => ?vmfhi16, fun rd s => ⟨_, rfl, moveEffect_setReg s rd _⟩,
    decodesVType_of_row_quad8 fun w hf => ?vmflo8, fun rd s => ⟨_, rfl, moveEffect_setReg s rd _⟩,
    decodesVType_of_row_dual16 fun w hf => ?vmflo16, fun rd s => ⟨_, rfl, moveEffect_setReg s rd _⟩⟩
  case mfhi | mflo => simp [decodeRType, hf]
  case vmfhi8 | vmflo8 => simp [decodeQuad8, hf]
  case vmfhi16 | vmflo16 => simp [decodeDual16, hf]

/-! ### Jumps and SETIE -/

/-- Settles O42: a write to `pc` alone. -/
theorem jumpRegisterResult : Obligations.JumpRegisterResult := by
  refine ⟨decodesRType_of_row fun w hf => ?_,
    fun rs s => ⟨_, rfl, rfl, State.setPc_reg s _, rfl, (SameRest.refl s).setPc _⟩⟩
  simp [decodeRType, hf]

/-- Settles O43: the link is a register write, the jump follows it. -/
theorem jumpAndLinkRegisterResult : Obligations.JumpAndLinkRegisterResult := by
  refine ⟨decodesRType_of_row fun w hf => ?row, fun rs s => ?link⟩
  case row => simp [decodeRType, hf]
  case link =>
    obtain ⟨hreg, hflags, -, hrest⟩ := moveEffect_setReg s raReg s.pc
    exact ⟨_, exec_jalr_eq_link rs s, hreg, rfl, hflags, hrest.setPc _⟩

/-- Settles O45: a write to IE alone. -/
theorem setieTogglesIe : Obligations.SetieTogglesIe := by
  refine ⟨decodesRType_of_row fun w hf => ?_,
    fun s => ⟨_, exec_setie s, rfl, State.setIe_reg s _, rfl, (SameRest.refl s).setIe _⟩⟩
  simp [decodeRType, hf]

end Sys2Proof.Machine
end

section
/-! SUPPORT. What the I-Type instructions do, and INPUT and OUTPUT with them (41 R163 to R181, 43 R210, R211). As for
the R-Type ones, each meaning is one of the state's operations, whose effect is a lemma. -/

namespace Sys2Proof.Machine

/-! ### Branch conditions (R168, R169, R180) -/

theorem eq_zero_iff_toInt_eq_zero (a : Word) : a = 0 ↔ a.toInt = 0 := BitVec.toInt_inj.symm

/-- The condition of BLEZ is the signed one (R169). -/
theorem msb_or_eq_zero_iff (a : Word) : (a.msb || a == 0) = true ↔ a.toInt ≤ 0 := by
  rw [Bool.or_eq_true, msb_iff_neg, beq_iff_eq, eq_zero_iff_toInt_eq_zero]
  omega

/-- BGTZ branches where BLEZ does not (R168). -/
theorem not_msb_and_ne_zero_iff (a : Word) : (!a.msb && a != 0) = true ↔ 0 < a.toInt := by
  have hnot : (!a.msb && a != 0) = !(a.msb || a == 0) := (Bool.not_or ..).symm
  rw [hnot, Bool.not_eq_true', ← Bool.not_eq_true, msb_or_eq_zero_iff, not_le]

/-- A word that is 0 has its top bit clear, so BGEZ's test for 0 adds nothing (R180, conflict C18). -/
theorem not_msb_or_eq_zero_iff (a : Word) : (!a.msb || a == 0) = true ↔ 0 ≤ a.toInt := by
  rw [Bool.or_eq_true, Bool.not_eq_true', ← Bool.not_eq_true, msb_iff_neg, beq_iff_eq, eq_zero_iff_toInt_eq_zero]
  omega

/-! ### Branches -/

/-- A branch with the flags of `FL_LOGIC`. -/
theorem branchEffect_flLogic (s : State) (a : Word) {taken : Bool} (off : Int) {P : Prop} (hp : taken = true ↔ P) :
    BranchEffect P off (LogicFlags a) s ((s.setStatus (flLogic a)).branchIf taken off) :=
  branchEffect_setStatus s _ taken off hp (flLogic_logicFlags ..)

/-- A branch that writes no flag. -/
theorem branchEffect_branchIf (s : State) {taken : Bool} (off : Int) {P : Prop} (hp : taken = true ↔ P) :
    BranchEffect P off (fun _ => True) s (s.branchIf taken off) := by
  cases taken with
  | true => exact ⟨fun _ => rfl, fun hP => absurd (hp.1 rfl) hP, trivial, rfl, fun _ => rfl, SameRest.refl s⟩
  | false => exact ⟨fun hP => absurd (hp.2 hP) nofun, fun _ => rfl, trivial, rfl, fun _ => rfl, SameRest.refl s⟩

/-- Settles O49: the two branch on DBZ itself and on its complement. -/
theorem divideByZeroBranchResults : Obligations.DivideByZeroBranchResults := by
  refine ⟨fun w hop => ?bdt,
    fun off s => ⟨_, exec_bdt off s, State.branchIf_flags .., branchEffect_branchIf s off Iff.rfl⟩,
    fun w hop => ?bdf,
    fun off s => ⟨_, exec_bdf off s, State.branchIf_flags ..,
      branchEffect_branchIf s off (iff_of_eq (Bool.not_eq_true' _))⟩⟩
  case bdt | bdf => simp [decodeWord, hop]

/-- Settles O47: the same flags under opposite conditions. -/
theorem compareBranchResults : Obligations.CompareBranchResults := by
  refine ⟨fun w hop => ?beq,
    fun rs rt off s => ⟨_, rfl, branchEffect_setStatus s _ _ off beq_iff_eq (flSub_subFlags ..)⟩,
    fun w hop => ?bne,
    fun rs rt off s => ⟨_, rfl, branchEffect_setStatus s _ _ off bne_iff_ne (flSub_subFlags ..)⟩⟩
  case beq | bne => simp [decodeWord, hop]

/-- Settles O48: four conditions on the sign, each as the model computes it. -/
theorem zeroBranchResults : Obligations.ZeroBranchResults := by
  refine ⟨fun w hop => ?bgtz, fun _ off s => ⟨_, rfl, branchEffect_flLogic s _ off (not_msb_and_ne_zero_iff _)⟩,
    fun w hop => ?blez, fun _ off s => ⟨_, rfl, branchEffect_flLogic s _ off (msb_or_eq_zero_iff _)⟩,
    fun w hop => ?bgez, fun _ off s => ⟨_, rfl, branchEffect_flLogic s _ off (not_msb_or_eq_zero_iff _)⟩,
    fun w hop => ?bltz, fun _ off s => ⟨_, rfl, branchEffect_flLogic s _ off (msb_iff_neg _)⟩⟩
  case bgtz | blez | bgez | bltz => simp [decodeWord, hop]

/-! ### Bitwise operations and single bits -/

/-- Settles O33: the logic effect of the register forms, with the immediate for the second operand. -/
theorem logicImmediateResults : Obligations.LogicImmediateResults := by
  refine ⟨fun w hop => ?andi, fun _ _ _ s => ⟨_, rfl, aluEffect_flLogic s _ _⟩,
    fun w hop => ?ori, fun _ _ _ s => ⟨_, rfl, aluEffect_flLogic s _ _⟩,
    fun w hop => ?xori, fun _ _ _ s => ⟨_, rfl, aluEffect_flLogic s _ _⟩,
    fun w hop => ?lui, fun _ _ s => ⟨_, rfl, aluEffect_flLogic s _ _⟩⟩
  case andi | ori | xori | lui => simp [decodeWord, hop]

/-- Settles O46: a register write alone, whose value is known bit by bit; an index above 31 is no `k` below 32. -/
theorem bitSetAndClearResults : Obligations.BitSetAndClearResults := by
  refine ⟨fun w hop => ?bsi, fun rt rs imm s => ⟨_, setBit (s.reg rs) (bitIndex imm), rfl, fun k hk => ?set,
      moveEffect_setReg s rt _⟩,
    fun w hop => ?bci, fun rt rs imm s => ⟨_, clearBit (s.reg rs) (bitIndex imm), rfl, fun k hk => ?clear,
      moveEffect_setReg s rt _⟩⟩
  case bsi | bci => simp [decodeWord, hop]
  case set => rw [getLsbD_setBit _ _ hk, bitIndex_eq]
  case clear => rw [getLsbD_clearBit _ _ hk, bitIndex_eq]

/-! ### Loads and stores -/

/-- Settles O50: the value is what memory reads at the address; the flags come from the addition before it. -/
theorem loadResults : Obligations.LoadResults := by
  refine ⟨fun w hop => ?lw, fun rt rs imm s => ⟨_, _, rfl, Memory.wordAt_readsWord s.dmem _ _,
      aluEffect_drew_setReg s _ _ rt _ (flAdd_addFlags ..)⟩,
    fun w hop => ?input, fun rt rs imm s => ⟨_, _, rfl, Memory.wordAt_readsWord s.iomem _ _,
      aluEffect_drew_setReg s _ _ rt _ (flAdd_addFlags ..)⟩⟩
  case lw | input => simp [decodeWord, hop]

/-- Settles O51: a status write and a write of one word to one memory. -/
theorem storeResults : Obligations.StoreResults := by
  refine ⟨fun w hop => ?sw, fun rt rs imm s => ?store, fun w hop => ?output, fun rt rs imm s => ?storeIo⟩
  case sw | output => simp [decodeWord, hop]
  case store =>
    obtain ⟨hhilo, hvector, ⟨himem, -, hiomem⟩, hcontrol⟩ := SameRest.refl s
    exact ⟨_, exec_sw rt rs imm s, Memory.setWord_holdsWord s.dmem _ _, Memory.setWord_sameBytesOutside s.dmem _ _,
      flAdd_addFlags .., rfl, fun _ => rfl, rfl, hhilo, hvector, himem, hiomem, hcontrol⟩
  case storeIo =>
    obtain ⟨hhilo, hvector, ⟨himem, hdmem, -⟩, hcontrol⟩ := SameRest.refl s
    exact ⟨_, exec_output rt rs imm s, Memory.setWord_holdsWord s.iomem _ _,
      Memory.setWord_sameBytesOutside s.iomem _ _, flAdd_addFlags .., rfl, fun _ => rfl, rfl, hhilo, hvector, himem,
      hdmem, hcontrol⟩

end Sys2Proof.Machine
end

section
/-! SUPPORT. What the J-Type instructions do (42 R200, R201): J is a write to `pc`, and JAL is J after the link. -/

namespace Sys2Proof.Machine

/-- Settles O52: a write to `pc` alone. -/
theorem jumpResult : Obligations.JumpResult := by
  refine ⟨fun w hop => ?row,
    fun addr s => ⟨s.setPc (jumpTarget s.pc addr), rfl, rfl, State.setPc_reg s _, rfl, (SameRest.refl s).setPc _⟩⟩
  case row => simp [decodeWord, hop]

/-- Settles O53: the link is a register write, the jump follows it and takes its upper bits from the old `pc`. -/
theorem jumpAndLinkResult : Obligations.JumpAndLinkResult := by
  refine ⟨fun w hop => ?row, fun addr s => ?link⟩
  case row => simp [decodeWord, hop]
  case link =>
    obtain ⟨hreg, hflags, -, hrest⟩ := moveEffect_setReg s raReg s.pc
    exact ⟨(s.setReg raReg s.pc).setPc (jumpTarget s.pc addr), rfl, hreg, rfl, hflags, hrest.setPc _⟩

end Sys2Proof.Machine
end

section
/-! SUPPORT. What RETI does (43 R212), and why it undoes an interrupt entry (60 R265, R266): the frame that entry
pushes holds two words, which RETI pops again whatever else the handler changed. -/

namespace Sys2Proof.Machine

variable {s u : State}

/-! ### The return -/

/-- The return from the interrupt writes no register but `$sp` (R212). -/
theorem State.interruptReturn_wroteReg (s : State) : WroteReg spReg (s.reg spReg + 8) s s.interruptReturn :=
  ⟨by rw [State.interruptReturn_reg, if_pos rfl, if_neg (by decide)],
    fun r hr => by rw [State.interruptReturn_reg, if_neg hr]⟩

/-- The return from the interrupt leaves the memories, the HI/LO pairs and the control state (R212). -/
theorem State.interruptReturn_sameRest (s : State) : SameRest s s.interruptReturn :=
  ⟨⟨by simp, by simp⟩, ⟨by simp, by simp⟩, ⟨fun _ => by simp, fun _ => by simp, fun _ => by simp⟩,
    by simp, by simp, by simp, by simp, by simp, by simp⟩

/-- Settles O54: the two popped words are what data memory reads at `$sp` and `$sp + 4`. -/
theorem retiResult : Obligations.RetiResult := by
  refine ⟨fun w hop => ?row, fun s => ⟨s.interruptReturn, s.dmemWord (s.reg spReg), s.interruptReturn.pc, exec_reti s,
    Memory.wordAt_readsWord s.dmem _ _, ?address, s.interruptReturn_flags, rfl, s.interruptReturn_wroteReg,
    s.interruptReturn_sameRest⟩⟩
  case row => simp [decodeWord, hop]
  case address =>
    rw [State.interruptReturn_pc]
    exact Memory.wordAt_readsWord s.dmem _ _

/-! ### Words that stay where they are -/

/-- A word is held wherever its four bytes are the same. -/
theorem HoldsWord.of_sameBytes {m m' : Memory} {i : Nat} {w : Word} (h : HoldsWord m i w)
    (hm : ∀ a, i ≤ a ∧ a ≤ i + 3 → m'.byte? a = m.byte? a) : HoldsWord m' i w :=
  fun j => (hm (i + j) (by omega)).trans (h j)

/-- A word written elsewhere does not touch it (R57). -/
theorem HoldsWord.setWord_disjoint {m : Memory} {i k : Nat} {w : Word} (h : HoldsWord m i w) (v : Word)
    (hd : i + 3 < k ∨ k + 3 < i) : HoldsWord (m.setWord k v) i w :=
  h.of_sameBytes fun a ha => Memory.setWord_sameBytesOutside m k v a (by omega)

/-! ### The frame (R265) -/

/-- The frame of an interrupt taken with this stack pointer: the return address at `sp - 4`, the flags word at
`sp - 8`. -/
structure HoldsFrame (m : Memory) (sp pc : Word) (f : Flags) : Prop where
  returnAddress : HoldsWord m (idx (sp - 4)) pc
  flags : HoldsWord m (idx (sp - 8)) (flagsWord f)

/-- Entry pushes the frame: the second push leaves the word of the first. -/
theorem State.interruptEntry_holdsFrame (s : State) :
    HoldsFrame s.interruptEntry.dmem (s.reg spReg) s.pc s.flags where
  returnAddress := by
    rw [State.interruptEntry_dmem]
    exact (Memory.setWord_holdsWord s.dmem _ s.pc).setWord_disjoint _ (frame_disjoint (s.reg spReg))
  flags := by
    rw [State.interruptEntry_dmem]
    exact Memory.setWord_holdsWord _ _ _

/-- With `$sp` at the bottom of a frame, the return gives back the `pc`, the flags and the `$sp` of the frame
(R266). -/
theorem State.interruptReturn_of_holdsFrame {sp pc : Word} {f : Flags} (hsp : u.reg spReg = sp - 8)
    (h : HoldsFrame u.dmem sp pc f) :
    u.interruptReturn.pc = pc ∧ u.interruptReturn.flags = f ∧ u.interruptReturn.reg spReg = sp := by
  have hret : sp - 8 + 4 = sp - 4 := by bv_omega
  refine ⟨?_, ?_, ?_⟩
  · rw [State.interruptReturn_pc, hsp, hret, Memory.wordAt_of_holdsWord h.returnAddress]
  · rw [State.interruptReturn_flags, State.dmemWord, hsp, Memory.wordAt_of_holdsWord h.flags, flagsOfWord_flagsWord]
  · rw [State.interruptReturn_reg, if_pos rfl, hsp, BitVec.sub_add_cancel]

/-- Settles O19: the step is the entry, the handler leaves the frame it pushed, and RETI returns through it. -/
theorem retiUndoesInterruptEntry : Obligations.RetiUndoesInterruptEntry := by
  intro s t u hs hack hintr hie hstep hsp hbytes
  obtain rfl : s.atBoundary.interruptEntry = t :=
    Host.Outcome.next.inj ((step_of_enter hs hack hintr hie).symm.trans hstep)
  have hpushed : HoldsFrame s.atBoundary.interruptEntry.dmem (s.reg spReg) s.pc s.flags :=
    s.atBoundary.interruptEntry_holdsFrame
  have hframe : HoldsFrame u.dmem (s.reg spReg) s.pc s.flags :=
    ⟨hpushed.returnAddress.of_sameBytes fun a ha => hbytes a (.inl ha),
      hpushed.flags.of_sameBytes fun a ha => hbytes a (.inr ha)⟩
  have hbottom : u.reg spReg = s.reg spReg - 8 := hsp.trans (State.interruptEntry_reg _ spReg)
  obtain ⟨hpc, hflags, hreg⟩ := State.interruptReturn_of_holdsFrame hbottom hframe
  exact ⟨u.interruptReturn, exec_reti u, hpc, hflags, hreg, u.interruptReturn_intAck⟩

end Sys2Proof.Machine
end

section
/-! SUPPORT. The instructions of the Vector Operations Unit (44 R220 to R238): results that are one register, said lane
by lane, and results that are the vector pair, said as a sequence of lanes. -/

namespace Sys2Proof.Machine

/-! ### Lanes as numbers (R220) -/

variable (a b : Word) {k : Nat}

/-- A sum of lanes wraps within its own lane. -/
theorem lane8_add_toNat (hk : k < 4) :
    (lane8 (lanes8 (· + ·) a b) k).toNat = ((lane8 a k).toNat + (lane8 b k).toNat) % 256 := by
  rw [lane8_lanes8 _ a b hk, BitVec.toNat_add]

theorem lane16_add_toNat (hk : k < 2) :
    (lane16 (lanes16 (· + ·) a b) k).toNat = ((lane16 a k).toNat + (lane16 b k).toNat) % 65536 := by
  rw [lane16_lanes16 _ a b hk, BitVec.toNat_add]

/-- A difference of lanes borrows from no other lane. -/
theorem lane8_sub_toNat (hk : k < 4) :
    (lane8 (lanes8 (· - ·) a b) k).toNat = ((lane8 a k).toNat + 256 - (lane8 b k).toNat) % 256 := by
  rw [lane8_lanes8 _ a b hk, BitVec.toNat_sub]
  have hlt := (lane8 b k).isLt
  omega

theorem lane16_sub_toNat (hk : k < 2) :
    (lane16 (lanes16 (· - ·) a b) k).toNat = ((lane16 a k).toNat + 65536 - (lane16 b k).toNat) % 65536 := by
  rw [lane16_lanes16 _ a b hk, BitVec.toNat_sub]
  have hlt := (lane16 b k).isLt
  omega

/-! ### The vector pair -/

/-- A write of the vector pair, with any number of draws, is an effect on that pair alone. -/
theorem sameButVHiLo_setVHiLo (s : State) (h l : Word) (n : Nat) : SameButVHiLo s ((s.setVHiLo h l).drew n) := by
  obtain ⟨hhilo, -, hmemories, hcontrol⟩ := SameRest.refl s
  exact ⟨⟨fun _ => rfl, rfl, hmemories, hcontrol⟩, hhilo, rfl⟩

/-- A pair put together from four halfwords holds them in order, the first lowest. -/
theorem vectorHalf_of_halves {t : State} (f : Nat → Half) (hlo : t.vlo = f 1 ++ f 0) (hhi : t.vhi = f 3 ++ f 2)
    (hk : k < 4) : vectorHalf t k = f k := by
  obtain ⟨h0, h1, h2, h3⟩ := vectorHalf_eq t
  obtain ⟨hlow0, hlow1⟩ := lane16_append (f 1) (f 0)
  obtain ⟨hhigh0, hhigh1⟩ := lane16_append (f 3) (f 2)
  rw [hlo] at h0 h1
  rw [hhi] at h2 h3
  match k, hk with
  | 0, _ => exact h0.trans hlow0
  | 1, _ => exact h1.trans hlow1
  | 2, _ => exact h2.trans hhigh0
  | 3, _ => exact h3.trans hhigh1

/-- The halfwords of the word in `vlo`, then those of the word in `vhi`. -/
theorem vectorHalf_of_words {t : State} (f : Nat → Word) (hlo : t.vlo = f 0) (hhi : t.vhi = f 1) (hk : k < 2) :
    vectorHalf t (2 * k) = lane16 (f k) 0 ∧ vectorHalf t (2 * k + 1) = lane16 (f k) 1 := by
  obtain ⟨h0, h1, h2, h3⟩ := vectorHalf_eq t
  rw [hlo] at h0 h1
  rw [hhi] at h2 h3
  match k, hk with
  | 0, _ => exact ⟨h0, h1⟩
  | 1, _ => exact ⟨h2, h3⟩

/-- DIV8 writes the pairs `{r_i, q_i}` in the order of the lanes, two draws set aside for each (R227). -/
theorem exec_div8_vectorHalf (rs rt : RegNum) (s : State) : ∃ t, exec (.div8 rs rt) s = .next t ∧ SameButVHiLo s t ∧
    ∀ k < 4, vectorHalf t k = divLane8 (s.draws + 2 * k) (s.reg rs) (s.reg rt) k :=
  ⟨_, rfl, sameButVHiLo_setVHiLo s _ _ 8, fun _ hk =>
    vectorHalf_of_halves (fun i => divLane8 (s.draws + 2 * i) (s.reg rs) (s.reg rt) i) rfl rfl hk⟩

/-- DIV16 writes the pairs `{r_i, q_i}` in the order of the lanes, two draws set aside for each (R228). -/
theorem exec_div16_vectorHalf (rs rt : RegNum) (s : State) : ∃ t, exec (.div16 rs rt) s = .next t ∧ SameButVHiLo s t ∧
    ∀ k < 2, vectorHalf t (2 * k) = lane16 (divLane16 (s.draws + 2 * k) (s.reg rs) (s.reg rt) k) 0 ∧
      vectorHalf t (2 * k + 1) = lane16 (divLane16 (s.draws + 2 * k) (s.reg rs) (s.reg rt) k) 1 :=
  ⟨_, rfl, sameButVHiLo_setVHiLo s _ _ 4, fun _ hk =>
    vectorHalf_of_words (fun i => divLane16 (s.draws + 2 * i) (s.reg rs) (s.reg rt) i) rfl rfl hk⟩

/-! ### The obligations -/

/-- Settles O55: each lane of the written word is known as a number. -/
theorem vectorAddAndSubtractResults : Obligations.VectorAddAndSubtractResults := by
  refine ⟨decodesVType_of_row_quad8 fun w hf => ?add8,
      fun rd _ _ s => ⟨_, _, rfl, fun _ => lane8_add_toNat _ _, moveEffect_setReg s rd _⟩,
    decodesVType_of_row_dual16 fun w hf => ?add16,
      fun rd _ _ s => ⟨_, _, rfl, fun _ => lane16_add_toNat _ _, moveEffect_setReg s rd _⟩,
    decodesVType_of_row_quad8 fun w hf => ?sub8,
      fun rd _ _ s => ⟨_, _, rfl, fun _ => lane8_sub_toNat _ _, moveEffect_setReg s rd _⟩,
    decodesVType_of_row_dual16 fun w hf => ?sub16,
      fun rd _ _ s => ⟨_, _, rfl, fun _ => lane16_sub_toNat _ _, moveEffect_setReg s rd _⟩⟩
  case add8 | sub8 => simp [decodeQuad8, hf]
  case add16 | sub16 => simp [decodeDual16, hf]

/-- Settles O57: the products fit their fields of the pair, in the order of the lanes. -/
theorem vectorMultiplyResults : Obligations.VectorMultiplyResults := by
  refine ⟨decodesVType_of_row_quad8 fun w hf => ?mul8,
    fun rs rt s => ⟨_, exec_mul8_eq_vHiLo rs rt s, fun k hk => ?product8, sameButVHiLo_setVHiLo s _ _ 0⟩,
    decodesVType_of_row_dual16 fun w hf => ?mul16,
    fun rs rt s => ⟨_, exec_mul16_eq_vHiLo rs rt s, mulLane16_toNat _ _ 0, mulLane16_toNat _ _ 1,
      sameButVHiLo_setVHiLo s _ _ 0⟩⟩
  case mul8 => simp [decodeQuad8, hf]
  case product8 => rw [vectorHalf_of_halves (mulLane8 (s.reg rs) (s.reg rt)) rfl rfl hk, mulLane8_toNat]
  case mul16 => simp [decodeDual16, hf]

/-- Settles O58: the free values of a lane without divisor stay in that lane's own pair. -/
theorem vectorDivideResults : Obligations.VectorDivideResults := by
  refine ⟨decodesVType_of_row_quad8 fun w hf => ?row8, fun rs rt s => ?lanes8,
    decodesVType_of_row_dual16 fun w hf => ?row16, fun rs rt s => ?lanes16⟩
  case row8 => simp [decodeQuad8, hf]
  case lanes8 =>
    obtain ⟨t, ht, hframe, hpairs⟩ := exec_div8_vectorHalf rs rt s
    refine ⟨t, ht, hframe, fun k hk hdivisor => ?_⟩
    obtain ⟨hquotient, hremainder⟩ := divLane8_fields (s.draws + 2 * k) (s := s.reg rs) hdivisor
    rw [hpairs k hk, hquotient, hremainder]
    exact ⟨BitVec.toNat_udiv, BitVec.toNat_umod⟩
  case row16 => simp [decodeDual16, hf]
  case lanes16 =>
    obtain ⟨t, ht, hframe, hpairs⟩ := exec_div16_vectorHalf rs rt s
    refine ⟨t, ht, hframe, fun k hk hdivisor => ?_⟩
    obtain ⟨hquotient, hremainder⟩ := divLane16_fields (s.draws + 2 * k) (s := s.reg rs) hdivisor
    obtain ⟨hlow, hhigh⟩ := hpairs k hk
    rw [hlow, hhigh, hquotient, hremainder]
    exact ⟨BitVec.toNat_udiv, BitVec.toNat_umod⟩

/-- Settles O56: eight rows of the tables, each a register write alone. -/
theorem vectorLogicResults : Obligations.VectorLogicResults := by
  refine ⟨decodesVType_of_row_quad8 fun w hf => ?and8, fun rd _ _ s => ⟨_, rfl, moveEffect_setReg s rd _⟩,
    decodesVType_of_row_dual16 fun w hf => ?and16, fun rd _ _ s => ⟨_, rfl, moveEffect_setReg s rd _⟩,
    decodesVType_of_row_quad8 fun w hf => ?or8, fun rd _ _ s => ⟨_, rfl, moveEffect_setReg s rd _⟩,
    decodesVType_of_row_dual16 fun w hf => ?or16, fun rd _ _ s => ⟨_, rfl, moveEffect_setReg s rd _⟩,
    decodesVType_of_row_quad8 fun w hf => ?xor8, fun rd _ _ s => ⟨_, rfl, moveEffect_setReg s rd _⟩,
    decodesVType_of_row_dual16 fun w hf => ?xor16, fun rd _ _ s => ⟨_, rfl, moveEffect_setReg s rd _⟩,
    decodesVType_of_row_quad8 fun w hf => ?not8, fun rd _ s => ⟨_, rfl, moveEffect_setReg s rd _⟩,
    decodesVType_of_row_dual16 fun w hf => ?not16, fun rd _ s => ⟨_, rfl, moveEffect_setReg s rd _⟩⟩
  case and8 | or8 | xor8 | not8 => simp [decodeQuad8, hf]
  case and16 | or16 | xor16 | not16 => simp [decodeDual16, hf]

end Sys2Proof.Machine
end

section
/-! SUPPORT. The interrupt at a boundary (60 R262 to R265): what entry pushes and sets, how the acknowledge latch moves
at each way through a step, and a line held high against IE, at which only the host acts, for any number of
boundaries. -/

namespace Sys2Proof.Machine

variable {s t : State} {n : Nat}

/-! ### Taking the interrupt (R265) -/

/-- Entry writes no register but `$sp` (R265). -/
theorem State.interruptEntry_wroteReg (s : State) : WroteReg spReg (s.reg spReg - 8) s s.interruptEntry :=
  ⟨by rw [State.interruptEntry_reg, if_pos rfl, if_neg (by decide)],
    fun r hr => by rw [State.interruptEntry_reg, if_neg hr]⟩

/-- Entry writes no byte of data memory outside the two words of its frame (R57, R265). -/
theorem State.interruptEntry_byte?_outside (s : State) {a : Nat}
    (hret : a < idx (s.reg spReg - 4) ∨ idx (s.reg spReg - 4) + 3 < a)
    (hfl : a < idx (s.reg spReg - 8) ∨ idx (s.reg spReg - 8) + 3 < a) :
    s.interruptEntry.dmem.byte? a = s.dmem.byte? a := by
  rw [State.interruptEntry_dmem]
  exact (Memory.setWord_sameBytesOutside _ _ _ a hfl).trans (Memory.setWord_sameBytesOutside _ _ _ a hret)

/-- Entry jumps to what the vector reads as in the memory after the pushes (R62, R265). -/
theorem State.interruptEntry_readsVector (s : State) : ReadsWord s.interruptEntry.dmem 0x3FC s.interruptEntry.pc := by
  rw [State.interruptEntry_pc]
  exact Memory.wordAt_readsWord _ 0x3FC _

/-- Settles O16: the step is the entry into the state with the host's move made, which differs from `s` in no register,
flag or byte of data memory. -/
theorem interruptEntryPushesFrameAndVectors : Obligations.InterruptEntryPushesFrameAndVectors := by
  intro s hs hack hintr hie
  have hframe : HoldsFrame s.atBoundary.interruptEntry.dmem (s.reg spReg) s.pc s.flags :=
    s.atBoundary.interruptEntry_holdsFrame
  refine ⟨_, step_of_enter hs hack hintr hie, hframe.returnAddress, hframe.flags,
    fun a hret hfl => s.atBoundary.interruptEntry_byte?_outside hret hfl, s.atBoundary.interruptEntry_readsVector,
    s.atBoundary.interruptEntry_wroteReg, State.interruptEntry_flags _, State.interruptEntry_intAck _,
    ⟨State.interruptEntry_hi _, State.interruptEntry_lo _⟩, ⟨State.interruptEntry_vhi _, State.interruptEntry_vlo _⟩,
    fun a => by simp, fun a => by simp, State.interruptEntry_ir _, (State.interruptEntry_ended _).trans hs.1,
    State.interruptEntry_variant _⟩

/-! ### The acknowledge latch (R264) -/

/-- The latch after a step that is no reset pulse: once set it follows the line, and entry alone sets it (R264). -/
def latchAfter (s : State) : Bool := if s.intAck then s.hostMove.intr else (s.hostMove.intr && s.flags.ie)

/-- A clear latch takes the outcome of the check: entry needs the line high and IE set (R262). -/
theorem latchAfter_of_clear (h : s.intAck = false) : latchAfter s = (s.hostMove.intr && s.flags.ie) := by
  simp [latchAfter, h]

/-- The fetch settles the latch: with the latch clear it needs the line low, which no entry does. -/
theorem latchAfter_of_fetchAllowed (hf : s.FetchAllowed) : latchAfter s = (s.intAck && s.hostMove.intr) := by
  cases ha : s.intAck with
  | true => simp [latchAfter, ha]
  | false =>
    have hlow : s.hostMove.intr = false := hf.resolve_right (by simp [ha])
    simp [latchAfter, ha, hlow]

/-- No instruction changes the latch, RETI among them, so after a step that fetches it is as the fetch settled it. -/
theorem exec_fetched_intAck {i : Instr} (h : exec i s.atBoundary.settleAck.fetch = .next t) :
    t.intAck = (s.intAck && s.hostMove.intr) := by
  obtain ⟨-, -, hack, -⟩ := exec_control h
  exact hack.trans (fetched_fetch s).intAck

/-- The latch after a step, by the ways through it. -/
theorem step_intAck (h : step s = .next t) : t.intAck = if s.hostMove.reset then false else latchAfter s := by
  rcases step_cases h with ⟨hr, rfl⟩ | ⟨⟨-, hr⟩, ha, hi, he, rfl⟩ | ⟨⟨-, hr⟩, ha, -, he, rfl⟩ | ⟨⟨-, hr⟩, hf, i, -, hx⟩ |
    ⟨⟨-, hr⟩, hf, e, -, rfl⟩
  · simp [hr]
  · simp [hr, latchAfter_of_clear ha, hi, he]
  · simp [hr, latchAfter_of_clear ha, ha, he]
  · simp [hr, latchAfter_of_fetchAllowed hf, exec_fetched_intAck hx]
  · simp [hr, latchAfter_of_fetchAllowed hf]

/-- Settles O18, by the ways through a step; with the latch set the check has one outcome. -/
theorem acknowledgeLatchFollowsEntryAndLine : Obligations.AcknowledgeLatchFollowsEntryAndLine :=
  fun _ => ⟨fun _ => step_intAck, fun hs ha => step_of_fetch hs (.inr ha)⟩

/-! ### The host's move at a boundary (D7, D16) -/

theorem State.hostMove_of_nil (h : s.hostMoves = []) : s.hostMove = ⟨s.intr, [], false⟩ := by
  simp [State.hostMove, h]

/-- The move at a boundary is the first one planned. -/
theorem State.hostMove_mem_take (h : s.hostMoves ≠ []) (n : Nat) : s.hostMove ∈ s.hostMoves.take (n + 1) := by
  obtain ⟨m, rest, hm⟩ := List.exists_cons_of_ne_nil h
  simp [State.hostMove, hm]

/-- The moves at the boundaries after this one are planned before it. -/
theorem State.mem_take_of_atBoundary {m : HostMove} (h : m ∈ s.atBoundary.hostMoves.take n) :
    m ∈ s.hostMoves.take (n + 1) := by
  cases hm : s.hostMoves with
  | nil => simp [hm] at h
  | cons m' rest =>
    rw [State.atBoundary_hostMoves, hm, List.tail_cons] at h
    exact List.mem_cons_of_mem _ h

/-! ### Boundaries at which only the host acts (R263, D8) -/

/-- The host's moves change the line, I/O memory and the moves to come, and nothing else of the state. -/
theorem State.atBoundary_iterate_eq (n : Nat) (s : State) : ∃ line io,
    State.atBoundary^[n] s = { s with intr := line, iomem := io, hostMoves := s.hostMoves.drop n } := by
  induction n generalizing s with
  | zero => exact ⟨s.intr, s.iomem, rfl⟩
  | succ n ih =>
    obtain ⟨line, io, h⟩ := ih s.atBoundary
    refine ⟨line, io, h.trans ?_⟩
    rw [State.atBoundary_hostMoves, List.drop_tail]
    rfl

/-- A byte of I/O memory that the host's moves do not name is as before (D16). -/
theorem State.atBoundary_iterate_iomem {a : Nat} (h : ∀ m ∈ s.hostMoves.take n, lastNamed m.ioWrites a = none) :
    (State.atBoundary^[n] s).iomem.byte? a = s.iomem.byte? a := by
  induction n generalizing s with
  | zero => rfl
  | succ n ih =>
    have hnow : lastNamed s.hostMove.ioWrites a = none := by
      by_cases hm : s.hostMoves = []
      · rw [State.hostMove_of_nil hm]; rfl
      · exact h _ (State.hostMove_mem_take hm n)
    refine (ih fun m hm => h m (State.mem_take_of_atBoundary hm)).trans ?_
    rw [State.atBoundary_iomem_byte?, hnow, Option.none_or, ite_self]

/-! ### A masked request (R263) -/

/-- The line is high and no reset is pulsed at each of the next `n` boundaries; a boundary for which no move is planned
keeps the line's level (log entry 5). -/
structure LineHeld (n : Nat) (s : State) : Prop where
  planned : ∀ m ∈ s.hostMoves.take n, m.intr = true ∧ m.reset = false
  unplanned : s.hostMoves = [] → s.intr = true ∨ n = 0

/-- The line at the first of the boundaries. -/
theorem LineHeld.hostMove (h : LineHeld (n + 1) s) : s.hostMove.intr = true ∧ s.hostMove.reset = false := by
  by_cases hm : s.hostMoves = []
  · rw [State.hostMove_of_nil hm]
    exact ⟨(h.unplanned hm).resolve_right n.succ_ne_zero, rfl⟩
  · exact h.planned _ (State.hostMove_mem_take hm n)

/-- After the first boundary the line is held for the others; past the last planned move it keeps the level. -/
theorem LineHeld.atBoundary (h : LineHeld (n + 1) s) : LineHeld n s.atBoundary where
  planned m hm := h.planned m (State.mem_take_of_atBoundary hm)
  unplanned _ := .inl h.hostMove.1

/-- The line is still high after the last of the boundaries. -/
theorem LineHeld.intr_after (h : LineHeld n s) (hn : n ≠ 0) : (State.atBoundary^[n] s).intr = true := by
  induction n generalizing s with
  | zero => exact absurd rfl hn
  | succ n ih =>
    by_cases hlast : n = 0
    · subst hlast
      exact h.hostMove.1
    · exact ih h.atBoundary hlast

/-- While the line is held against IE, every step is blocked: a run is the host's moves alone (R263). -/
theorem LineHeld.run (h : LineHeld n s) (hend : s.ended = none) (hie : s.flags.ie = false) (hack : s.intAck = false) :
    Sys2Proof.core.run n s = .next (State.atBoundary^[n] s) := by
  induction n generalizing s with
  | zero => rfl
  | succ n ih =>
    obtain ⟨hintr, hreset⟩ := h.hostMove
    have hstep : Sys2Proof.core.step s = .next s.atBoundary := step_of_blocked ⟨hend, hreset⟩ hack hintr hie
    exact (core_run_succ Sys2Proof.core n s _ hstep).trans (ih h.atBoundary hend hie hack)

/-- Settles O17: the run is the host's moves alone, and these leave the CPU's state. -/
theorem maskedRequestBlocksTheFetch : Obligations.MaskedRequestBlocksTheFetch := by
  intro n s hend hie hack hplanned hunplanned
  have hheld : LineHeld n s := ⟨hplanned, hunplanned⟩
  have hio : ∀ a, (∀ m ∈ s.hostMoves.take n, lastNamed m.ioWrites a = none) →
      (State.atBoundary^[n] s).iomem.byte? a = s.iomem.byte? a := fun _ => State.atBoundary_iterate_iomem
  have hline : n ≠ 0 → (State.atBoundary^[n] s).intr = true := hheld.intr_after
  refine ⟨State.atBoundary^[n] s, hheld.run hend hie hack, ?_⟩
  obtain ⟨line, io, heq⟩ := State.atBoundary_iterate_eq n s
  rw [heq] at hio hline ⊢
  exact ⟨fun _ => rfl, rfl, rfl, ⟨rfl, rfl⟩, ⟨rfl, rfl⟩, fun _ => rfl, fun _ => rfl, hio, rfl, hack, hend, hline, rfl,
    rfl⟩

end Sys2Proof.Machine
end
